-- ==== Sys2Proof/Word.lean ====
section
/-! DEFINITION. The two word widths of the core (spec/00_scope.md R3 XLEN and ALEN, R4). -/

namespace Sys2Proof

/-- A byte: `A`, `X`, `Y`, `S`, `P` and every memory cell (R3 `XLEN`, 20_memory R50). -/
abbrev Byte := BitVec 8

/-- A 16-bit address: `PC`, the vectors and every bus address (R3 `ALEN`, 20_memory R50). -/
abbrev Addr := BitVec 16

end Sys2Proof
end

