-- ==== Sys2Proof/Config.lean ====
section
/-! DEFINITION. The parameters spec/00_scope.md R3 fixes or decides, and the bytes the core fixes of the
address map (spec/20_memory.md R51). The OPEN parameters `RESET_A`, `RESET_X`, `RESET_Y`, `RESET_P` and
`Platform` are arguments or plain data of the machine, never constants here: no claim can lean on them. -/

namespace Sys2Proof

/-- Where the NMI vector is read from at construction (R3 `VEC_NMI`, R51). -/
def Config.vecNmi : Addr := 0xFFFA

/-- Where the reset vector is read from at construction (R3 `VEC_RESET`, R51). -/
def Config.vecReset : Addr := 0xFFFC

/-- Where the IRQ vector is read from at construction (R3 `VEC_IRQ`, R51). -/
def Config.vecIrq : Addr := 0xFFFE

/-- `S` after construction (R3 `RESET_S`, 10_state R35). -/
def Config.resetS : Byte := 0xFF

/-- The default of the parameter `HALT_BOUNDARY` (R3). -/
def Config.haltBoundary : Addr := 0xFFFA

/-- The default of the parameter `HALT_ENABLE` (R3; DESIGN CHOICE of the spec, D5, log 9). -/
def Config.haltEnable : Bool := true

/-- The byte an address nothing has been written to reads as: the spec's test-default image, "all 0x00
except listed bytes" (93_implementation_defined U17; DESIGN CHOICE, log 3). -/
def Config.unlistedByte : Byte := 0x00

/-- The bytes a platform puts into memory by itself where its description leaves them open: a FREE value for each
number, of which nothing can be proved (20_memory R62; DESIGN CHOICE, log 26). -/
opaque Config.platformByte : Nat → Byte

end Sys2Proof
end

