-- ==== Sys2Proof/Syntax.lean ====
section
/-! DEFINITION. The two closed enumerations of spec/30_encoding.md (R84 modes, R85 operations), the operand
forms a mode gives (R83), the instruction type, and a row of the opcode table (R80, R95). One constructor of
`Instr` per mnemonic of the table, applied to the operand form: the table's 151 rows are the 151 well-formed
(constructor, operand form) pairs (log 17). -/

namespace Sys2Proof

/-- The "closed enumeration of 13 modes" (R84). -/
inductive Mode where
  | implied
  | accumulator
  | immediate
  | relative
  | zeroPage
  | zeroPageX
  | zeroPageY
  | absolute
  | absoluteX
  | absoluteY
  | indirect
  | indirectX
  | indirectY
deriving DecidableEq, Repr

/-- OperationKind: the 56 mnemonics (R85; the members the document does not name are PRESUMED, log 1). -/
inductive Operation where
  | adc | and | asl | bcc | bcs | beq | bit | bmi
  | bne | bpl | brk | bvc | bvs | clc | cld | cli
  | clv | cmp | cpx | cpy | dec | dex | dey | eor
  | inc | inx | iny | jmp | jsr | lda | ldx | ldy
  | lsr | nop | ora | pha | php | pla | plp | rol
  | ror | rti | rts | sbc | sec | sed | sei | sta
  | stx | sty | tax | tay | tsx | txa | txs | tya
deriving DecidableEq, Repr

/-- An addressing mode with its operand bytes assembled as R83 says: a byte used as it is, or the 16-bit
value `{op2, op1}`. -/
inductive Operand where
  /-- Implied: no operand bytes. -/
  | implied
  /-- Accumulator: no operand bytes, the location is `A` (R113). -/
  | accumulator
  /-- Immediate: `op1` is the input value. -/
  | immediate (value : Byte)
  /-- Relative: `op1` is a signed displacement, used by no implemented operation (R83, R229). -/
  | relative (displacement : Byte)
  /-- ZeroPage: `op1` is a zero-page address. -/
  | zeroPage (address : Byte)
  /-- ZeroPageX: `op1` is a zero-page address, indexed by `X`. -/
  | zeroPageX (address : Byte)
  /-- ZeroPageY: `op1` is a zero-page address, indexed by `Y`. -/
  | zeroPageY (address : Byte)
  /-- Absolute: `{op2, op1}` is the address. -/
  | absolute (address : Addr)
  /-- AbsoluteX: `{op2, op1}` is the base, indexed by `X`. -/
  | absoluteX (base : Addr)
  /-- AbsoluteY: `{op2, op1}` is the base, indexed by `Y`. -/
  | absoluteY (base : Addr)
  /-- Indirect: `{op2, op1}` is the address of a pointer. -/
  | indirect (pointer : Addr)
  /-- IndirectX: `op1` indexed by `X` is the zero-page address of a pointer. -/
  | indirectX (pointer : Byte)
  /-- IndirectY: `op1` is the zero-page address of a pointer whose value is indexed by `Y`. -/
  | indirectY (pointer : Byte)
deriving DecidableEq, Repr

/-- An instruction: an operation and its operand form. A form the default table does not pair with the
operation is ill-formed (WellFormed.lean) but has a meaning, since a replacement table may pair them (R95). -/
inductive Instr where
  | adc (operand : Operand)
  | and (operand : Operand)
  | asl (operand : Operand)
  | bcc (operand : Operand)
  | bcs (operand : Operand)
  | beq (operand : Operand)
  | bit (operand : Operand)
  | bmi (operand : Operand)
  | bne (operand : Operand)
  | bpl (operand : Operand)
  | brk (operand : Operand)
  | bvc (operand : Operand)
  | bvs (operand : Operand)
  | clc (operand : Operand)
  | cld (operand : Operand)
  | cli (operand : Operand)
  | clv (operand : Operand)
  | cmp (operand : Operand)
  | cpx (operand : Operand)
  | cpy (operand : Operand)
  | dec (operand : Operand)
  | dex (operand : Operand)
  | dey (operand : Operand)
  | eor (operand : Operand)
  | inc (operand : Operand)
  | inx (operand : Operand)
  | iny (operand : Operand)
  | jmp (operand : Operand)
  | jsr (operand : Operand)
  | lda (operand : Operand)
  | ldx (operand : Operand)
  | ldy (operand : Operand)
  | lsr (operand : Operand)
  | nop (operand : Operand)
  | ora (operand : Operand)
  | pha (operand : Operand)
  | php (operand : Operand)
  | pla (operand : Operand)
  | plp (operand : Operand)
  | rol (operand : Operand)
  | ror (operand : Operand)
  | rti (operand : Operand)
  | rts (operand : Operand)
  | sbc (operand : Operand)
  | sec (operand : Operand)
  | sed (operand : Operand)
  | sei (operand : Operand)
  | sta (operand : Operand)
  | stx (operand : Operand)
  | sty (operand : Operand)
  | tax (operand : Operand)
  | tay (operand : Operand)
  | tsx (operand : Operand)
  | txa (operand : Operand)
  | txs (operand : Operand)
  | tya (operand : Operand)
deriving DecidableEq, Repr

/-- A row of an opcode table: `opcode` to `(operation, mode, base_cycles)`. The row's `length` is no field:
R82 and R95 require `length = 1 + OperandCount(mode)` of every table, so it is computed (Decode.lean, log 18). -/
structure Row where
  opcode : Byte
  operation : Operation
  mode : Mode
  baseCycles : Nat
deriving DecidableEq, Repr

/-- The parameter `OPTAB` (00_scope R3): the default table of R86, or a replacement table given as its rows
(R95). -/
inductive Optab where
  | standard
  | replacement (rows : List Row)
deriving DecidableEq, Repr

end Sys2Proof
end

