-- ==== Sys2Proof/WellFormed.lean ====
section
/-! DEFINITION. Which operand forms an instruction may take: the (operation, mode) pairs of the default
opcode table (spec/30_encoding.md R86), written by operation and checked against the table's rows in
Tests/Slice0.lean. -/

namespace Sys2Proof

/-- The mode of an operand form (R83, R84). -/
def Operand.mode : Operand → Mode
  | .implied => .implied
  | .accumulator => .accumulator
  | .immediate _ => .immediate
  | .relative _ => .relative
  | .zeroPage _ => .zeroPage
  | .zeroPageX _ => .zeroPageX
  | .zeroPageY _ => .zeroPageY
  | .absolute _ => .absolute
  | .absoluteX _ => .absoluteX
  | .absoluteY _ => .absoluteY
  | .indirect _ => .indirect
  | .indirectX _ => .indirectX
  | .indirectY _ => .indirectY

/-- The operation of an instruction (R85). -/
def Instr.operation : Instr → Operation
  | .adc _ => .adc
  | .and _ => .and
  | .asl _ => .asl
  | .bcc _ => .bcc
  | .bcs _ => .bcs
  | .beq _ => .beq
  | .bit _ => .bit
  | .bmi _ => .bmi
  | .bne _ => .bne
  | .bpl _ => .bpl
  | .brk _ => .brk
  | .bvc _ => .bvc
  | .bvs _ => .bvs
  | .clc _ => .clc
  | .cld _ => .cld
  | .cli _ => .cli
  | .clv _ => .clv
  | .cmp _ => .cmp
  | .cpx _ => .cpx
  | .cpy _ => .cpy
  | .dec _ => .dec
  | .dex _ => .dex
  | .dey _ => .dey
  | .eor _ => .eor
  | .inc _ => .inc
  | .inx _ => .inx
  | .iny _ => .iny
  | .jmp _ => .jmp
  | .jsr _ => .jsr
  | .lda _ => .lda
  | .ldx _ => .ldx
  | .ldy _ => .ldy
  | .lsr _ => .lsr
  | .nop _ => .nop
  | .ora _ => .ora
  | .pha _ => .pha
  | .php _ => .php
  | .pla _ => .pla
  | .plp _ => .plp
  | .rol _ => .rol
  | .ror _ => .ror
  | .rti _ => .rti
  | .rts _ => .rts
  | .sbc _ => .sbc
  | .sec _ => .sec
  | .sed _ => .sed
  | .sei _ => .sei
  | .sta _ => .sta
  | .stx _ => .stx
  | .sty _ => .sty
  | .tax _ => .tax
  | .tay _ => .tay
  | .tsx _ => .tsx
  | .txa _ => .txa
  | .txs _ => .txs
  | .tya _ => .tya

/-- The operand form of an instruction. -/
def Instr.operand : Instr → Operand
  | .adc o | .and o | .asl o | .bcc o | .bcs o | .beq o
  | .bit o | .bmi o | .bne o | .bpl o | .brk o | .bvc o
  | .bvs o | .clc o | .cld o | .cli o | .clv o | .cmp o
  | .cpx o | .cpy o | .dec o | .dex o | .dey o | .eor o
  | .inc o | .inx o | .iny o | .jmp o | .jsr o | .lda o
  | .ldx o | .ldy o | .lsr o | .nop o | .ora o | .pha o
  | .php o | .pla o | .plp o | .rol o | .ror o | .rti o
  | .rts o | .sbc o | .sec o | .sed o | .sei o | .sta o
  | .stx o | .sty o | .tax o | .tay o | .tsx o | .txa o
  | .txs o | .tya o => o

/-- The modes the default table pairs with an operation (R86). -/
def Operation.modes : Operation → List Mode
  | .adc | .and | .cmp | .eor | .lda | .ora | .sbc =>
    [.immediate, .zeroPage, .zeroPageX, .absolute, .absoluteX, .absoluteY, .indirectX, .indirectY]
  | .asl | .lsr | .rol | .ror =>
    [.accumulator, .zeroPage, .zeroPageX, .absolute, .absoluteX]
  | .bcc | .bcs | .beq | .bmi | .bne | .bpl | .bvc | .bvs =>
    [.relative]
  | .bit =>
    [.zeroPage, .absolute]
  | .brk | .clc | .cld | .cli | .clv | .dex | .dey | .inx
  | .iny | .nop | .pha | .php | .pla | .plp | .rti | .rts
  | .sec | .sed | .sei | .tax | .tay | .tsx | .txa | .txs
  | .tya =>
    [.implied]
  | .cpx | .cpy =>
    [.immediate, .zeroPage, .absolute]
  | .dec | .inc =>
    [.zeroPage, .zeroPageX, .absolute, .absoluteX]
  | .jmp =>
    [.absolute, .indirect]
  | .jsr =>
    [.absolute]
  | .ldx =>
    [.immediate, .zeroPage, .zeroPageY, .absolute, .absoluteY]
  | .ldy =>
    [.immediate, .zeroPage, .zeroPageX, .absolute, .absoluteX]
  | .sta =>
    [.zeroPage, .zeroPageX, .absolute, .absoluteX, .absoluteY, .indirectX, .indirectY]
  | .stx =>
    [.zeroPage, .zeroPageY, .absolute]
  | .sty =>
    [.zeroPage, .zeroPageX, .absolute]

/-- The instruction's operand form is one the default table pairs with its operation (R86). -/
def Instr.wellFormed (i : Instr) : Bool := i.operation.modes.contains i.operand.mode

end Sys2Proof
end

