-- ==== Sys2Proof/Decode.lean ====
section
/-! DEFINITION. The decoder (spec/30_encoding.md R80 to R95): the default opcode table, the lookup, operand
assembly, decoding of a byte list, and the encoder. -/

namespace Sys2Proof

/-! ### Bytes and words -/

/-- `{h, l}`: the 16-bit value with high byte `h` and low byte `l` (00_scope R4, 20_memory R52). -/
def joinBytes (h l : Byte) : Addr := h ++ l

/-- `w[7:0]` (R4). -/
def lowByte (w : Addr) : Byte := w.extractLsb' 0 8

/-- `w[15:8]` (R4). -/
def highByte (w : Addr) : Byte := w.extractLsb' 8 8

/-! ### The opcode table -/

/-- The number of operand bytes of a mode (R82). -/
def operandCount : Mode → Nat
  | .implied | .accumulator => 0
  | .immediate | .relative | .zeroPage | .zeroPageX | .zeroPageY | .indirectX | .indirectY => 1
  | .absolute | .absoluteX | .absoluteY | .indirect => 2

/-- A row's `length`, which "includes the opcode byte itself": `1 + OperandCount(mode)` (R81, R82). -/
def Row.length (r : Row) : Nat := 1 + operandCount r.mode

/-- Rows of the default table, class arithmetic (R86; values PRESUMED, log 1). -/
def arithmeticRows1 : List Row :=
  [⟨0x61, .adc, .indirectX, 6⟩,
   ⟨0x65, .adc, .zeroPage, 3⟩,
   ⟨0x69, .adc, .immediate, 2⟩,
   ⟨0x6D, .adc, .absolute, 4⟩,
   ⟨0x71, .adc, .indirectY, 5⟩,
   ⟨0x75, .adc, .zeroPageX, 4⟩,
   ⟨0x79, .adc, .absoluteY, 4⟩,
   ⟨0x7D, .adc, .absoluteX, 4⟩,
   ⟨0xE1, .sbc, .indirectX, 6⟩,
   ⟨0xE5, .sbc, .zeroPage, 3⟩,
   ⟨0xE9, .sbc, .immediate, 2⟩,
   ⟨0xED, .sbc, .absolute, 4⟩,
   ⟨0xF1, .sbc, .indirectY, 5⟩,
   ⟨0xF5, .sbc, .zeroPageX, 4⟩,
   ⟨0xF9, .sbc, .absoluteY, 4⟩,
   ⟨0xFD, .sbc, .absoluteX, 4⟩,
   ⟨0xC1, .cmp, .indirectX, 6⟩,
   ⟨0xC5, .cmp, .zeroPage, 3⟩,
   ⟨0xC9, .cmp, .immediate, 2⟩,
   ⟨0xCD, .cmp, .absolute, 4⟩,
   ⟨0xD1, .cmp, .indirectY, 5⟩,
   ⟨0xD5, .cmp, .zeroPageX, 4⟩,
   ⟨0xD9, .cmp, .absoluteY, 4⟩,
   ⟨0xDD, .cmp, .absoluteX, 4⟩,
   ⟨0xE0, .cpx, .immediate, 2⟩,
   ⟨0xE4, .cpx, .zeroPage, 3⟩,
   ⟨0xEC, .cpx, .absolute, 4⟩,
   ⟨0xC0, .cpy, .immediate, 2⟩,
   ⟨0xC4, .cpy, .zeroPage, 3⟩,
   ⟨0xCC, .cpy, .absolute, 4⟩,
   ⟨0xE6, .inc, .zeroPage, 5⟩,
   ⟨0xEE, .inc, .absolute, 6⟩,
   ⟨0xF6, .inc, .zeroPageX, 6⟩,
   ⟨0xFE, .inc, .absoluteX, 7⟩,
   ⟨0xC6, .dec, .zeroPage, 5⟩,
   ⟨0xCE, .dec, .absolute, 6⟩,
   ⟨0xD6, .dec, .zeroPageX, 6⟩,
   ⟨0xDE, .dec, .absoluteX, 7⟩,
   ⟨0xE8, .inx, .implied, 2⟩,
   ⟨0xC8, .iny, .implied, 2⟩]

/-- Rows of the default table, class arithmetic (R86; values PRESUMED, log 1). -/
def arithmeticRows2 : List Row :=
  [⟨0xCA, .dex, .implied, 2⟩,
   ⟨0x88, .dey, .implied, 2⟩,
   ⟨0x06, .asl, .zeroPage, 5⟩,
   ⟨0x0A, .asl, .accumulator, 2⟩,
   ⟨0x0E, .asl, .absolute, 6⟩,
   ⟨0x16, .asl, .zeroPageX, 6⟩,
   ⟨0x1E, .asl, .absoluteX, 7⟩,
   ⟨0x46, .lsr, .zeroPage, 5⟩,
   ⟨0x4A, .lsr, .accumulator, 2⟩,
   ⟨0x4E, .lsr, .absolute, 6⟩,
   ⟨0x56, .lsr, .zeroPageX, 6⟩,
   ⟨0x5E, .lsr, .absoluteX, 7⟩,
   ⟨0x26, .rol, .zeroPage, 5⟩,
   ⟨0x2A, .rol, .accumulator, 2⟩,
   ⟨0x2E, .rol, .absolute, 6⟩,
   ⟨0x36, .rol, .zeroPageX, 6⟩,
   ⟨0x3E, .rol, .absoluteX, 7⟩,
   ⟨0x66, .ror, .zeroPage, 5⟩,
   ⟨0x6A, .ror, .accumulator, 2⟩,
   ⟨0x6E, .ror, .absolute, 6⟩,
   ⟨0x76, .ror, .zeroPageX, 6⟩,
   ⟨0x7E, .ror, .absoluteX, 7⟩]

/-- Rows of the default table, class logical (R86; values PRESUMED, log 1). -/
def logicalRows : List Row :=
  [⟨0x21, .and, .indirectX, 6⟩,
   ⟨0x25, .and, .zeroPage, 3⟩,
   ⟨0x29, .and, .immediate, 2⟩,
   ⟨0x2D, .and, .absolute, 4⟩,
   ⟨0x31, .and, .indirectY, 5⟩,
   ⟨0x35, .and, .zeroPageX, 4⟩,
   ⟨0x39, .and, .absoluteY, 4⟩,
   ⟨0x3D, .and, .absoluteX, 4⟩,
   ⟨0x01, .ora, .indirectX, 6⟩,
   ⟨0x05, .ora, .zeroPage, 3⟩,
   ⟨0x09, .ora, .immediate, 2⟩,
   ⟨0x0D, .ora, .absolute, 4⟩,
   ⟨0x11, .ora, .indirectY, 5⟩,
   ⟨0x15, .ora, .zeroPageX, 4⟩,
   ⟨0x19, .ora, .absoluteY, 4⟩,
   ⟨0x1D, .ora, .absoluteX, 4⟩,
   ⟨0x41, .eor, .indirectX, 6⟩,
   ⟨0x45, .eor, .zeroPage, 3⟩,
   ⟨0x49, .eor, .immediate, 2⟩,
   ⟨0x4D, .eor, .absolute, 4⟩,
   ⟨0x51, .eor, .indirectY, 5⟩,
   ⟨0x55, .eor, .zeroPageX, 4⟩,
   ⟨0x59, .eor, .absoluteY, 4⟩,
   ⟨0x5D, .eor, .absoluteX, 4⟩,
   ⟨0x24, .bit, .zeroPage, 3⟩,
   ⟨0x2C, .bit, .absolute, 4⟩]

/-- Rows of the default table, class branch (R86; values PRESUMED, log 1). -/
def branchRows : List Row :=
  [⟨0x90, .bcc, .relative, 2⟩,
   ⟨0xB0, .bcs, .relative, 2⟩,
   ⟨0xF0, .beq, .relative, 2⟩,
   ⟨0x30, .bmi, .relative, 2⟩,
   ⟨0xD0, .bne, .relative, 2⟩,
   ⟨0x10, .bpl, .relative, 2⟩,
   ⟨0x50, .bvc, .relative, 2⟩,
   ⟨0x70, .bvs, .relative, 2⟩,
   ⟨0x4C, .jmp, .absolute, 3⟩,
   ⟨0x6C, .jmp, .indirect, 5⟩,
   ⟨0x20, .jsr, .absolute, 6⟩,
   ⟨0x60, .rts, .implied, 6⟩]

/-- Rows of the default table, class stack (R86; values PRESUMED, log 1). -/
def stackRows : List Row :=
  [⟨0x48, .pha, .implied, 3⟩,
   ⟨0x08, .php, .implied, 3⟩,
   ⟨0x68, .pla, .implied, 4⟩,
   ⟨0x28, .plp, .implied, 4⟩,
   ⟨0xBA, .tsx, .implied, 2⟩,
   ⟨0x9A, .txs, .implied, 2⟩]

/-- Rows of the default table, class transfer (R86; values PRESUMED, log 1). -/
def transferRows : List Row :=
  [⟨0xAA, .tax, .implied, 2⟩,
   ⟨0xA8, .tay, .implied, 2⟩,
   ⟨0x8A, .txa, .implied, 2⟩,
   ⟨0x98, .tya, .implied, 2⟩,
   ⟨0xA1, .lda, .indirectX, 6⟩,
   ⟨0xA5, .lda, .zeroPage, 3⟩,
   ⟨0xA9, .lda, .immediate, 2⟩,
   ⟨0xAD, .lda, .absolute, 4⟩,
   ⟨0xB1, .lda, .indirectY, 5⟩,
   ⟨0xB5, .lda, .zeroPageX, 4⟩,
   ⟨0xB9, .lda, .absoluteY, 4⟩,
   ⟨0xBD, .lda, .absoluteX, 4⟩,
   ⟨0xA2, .ldx, .immediate, 2⟩,
   ⟨0xA6, .ldx, .zeroPage, 3⟩,
   ⟨0xAE, .ldx, .absolute, 4⟩,
   ⟨0xB6, .ldx, .zeroPageY, 4⟩,
   ⟨0xBE, .ldx, .absoluteY, 4⟩,
   ⟨0xA0, .ldy, .immediate, 2⟩,
   ⟨0xA4, .ldy, .zeroPage, 3⟩,
   ⟨0xAC, .ldy, .absolute, 4⟩,
   ⟨0xB4, .ldy, .zeroPageX, 4⟩,
   ⟨0xBC, .ldy, .absoluteX, 4⟩,
   ⟨0x81, .sta, .indirectX, 6⟩,
   ⟨0x85, .sta, .zeroPage, 3⟩,
   ⟨0x8D, .sta, .absolute, 4⟩,
   ⟨0x91, .sta, .indirectY, 6⟩,
   ⟨0x95, .sta, .zeroPageX, 4⟩,
   ⟨0x99, .sta, .absoluteY, 5⟩,
   ⟨0x9D, .sta, .absoluteX, 5⟩,
   ⟨0x86, .stx, .zeroPage, 3⟩,
   ⟨0x8E, .stx, .absolute, 4⟩,
   ⟨0x96, .stx, .zeroPageY, 4⟩,
   ⟨0x84, .sty, .zeroPage, 3⟩,
   ⟨0x8C, .sty, .absolute, 4⟩,
   ⟨0x94, .sty, .zeroPageX, 4⟩]

/-- Rows of the default table, class flag (R86; values PRESUMED, log 1). -/
def flagRows : List Row :=
  [⟨0x18, .clc, .implied, 2⟩,
   ⟨0xD8, .cld, .implied, 2⟩,
   ⟨0x58, .cli, .implied, 2⟩,
   ⟨0xB8, .clv, .implied, 2⟩,
   ⟨0x38, .sec, .implied, 2⟩,
   ⟨0xF8, .sed, .implied, 2⟩,
   ⟨0x78, .sei, .implied, 2⟩]

/-- Rows of the default table, class system (R86; values PRESUMED, log 1). -/
def systemRows : List Row :=
  [⟨0xEA, .nop, .implied, 2⟩,
   ⟨0x00, .brk, .implied, 7⟩,
   ⟨0x40, .rti, .implied, 6⟩]

/-- The default `OPTAB`: 151 rows (R86; PRESUMED, log 1). -/
def standardRows : List Row :=
  arithmeticRows1 ++ arithmeticRows2 ++ logicalRows ++ branchRows ++ stackRows ++ transferRows ++ flagRows ++ systemRows

/-- The rows of the table in force. -/
def Optab.rows : Optab → List Row
  | .standard => standardRows
  | .replacement rows => rows

/-- The first row of a list that has the opcode byte. -/
def findOpcode (b : Byte) : List Row → Option Row
  | [] => none
  | r :: rest => if r.opcode = b then some r else findOpcode b rest

/-- `Decode(b)`: the descriptor of the opcode byte, or none where the table has no row (R80, R88). It looks
at the opcode byte only. -/
def Optab.lookup (t : Optab) (b : Byte) : Option Row := findOpcode b t.rows

/-! ### The implemented operations -/

/-- The set `IMPL` (00_scope R3): the operations with a semantic mapping. -/
def Operation.implemented : Operation → Bool
  | .adc | .jmp | .clc | .cld | .cli | .clv | .sec | .sed | .sei | .tax | .tay | .txa | .tya | .inx | .iny
  | .nop => true
  | .and | .asl | .bit | .cmp | .cpx | .cpy | .dec | .dex | .dey | .eor | .inc | .lda | .ldx | .ldy | .lsr
  | .ora | .rol | .ror | .sbc | .sta | .stx | .sty | .tsx | .txs | .bcc | .bcs | .beq | .bmi | .bne | .bpl
  | .bvc | .bvs | .jsr | .brk | .rti | .rts | .pha | .php | .pla | .plp => false

/-! ### Operand assembly -/

/-- Assembles a mode's operand from the bytes after the opcode: `op1` the first, `op2` the second (R83). A
byte the list lacks counts as 0; decoding and fetching never ask with fewer bytes than the mode has. -/
def assemble (m : Mode) (ops : List Byte) : Operand :=
  match m with
  | .implied => .implied
  | .accumulator => .accumulator
  | .immediate => .immediate (ops.getD 0 0)
  | .relative => .relative (ops.getD 0 0)
  | .zeroPage => .zeroPage (ops.getD 0 0)
  | .zeroPageX => .zeroPageX (ops.getD 0 0)
  | .zeroPageY => .zeroPageY (ops.getD 0 0)
  | .absolute => .absolute (joinBytes (ops.getD 1 0) (ops.getD 0 0))
  | .absoluteX => .absoluteX (joinBytes (ops.getD 1 0) (ops.getD 0 0))
  | .absoluteY => .absoluteY (joinBytes (ops.getD 1 0) (ops.getD 0 0))
  | .indirect => .indirect (joinBytes (ops.getD 1 0) (ops.getD 0 0))
  | .indirectX => .indirectX (ops.getD 0 0)
  | .indirectY => .indirectY (ops.getD 0 0)

/-- The operand bytes of an operand form, the inverse of `assemble` (R52, R83). -/
def operandBytes : Operand → List Byte
  | .implied | .accumulator => []
  | .immediate b | .relative b | .zeroPage b | .zeroPageX b | .zeroPageY b | .indirectX b | .indirectY b => [b]
  | .absolute w | .absoluteX w | .absoluteY w | .indirect w => [lowByte w, highByte w]

/-- The instruction an operation makes with an operand form. -/
def makeInstr (op : Operation) (o : Operand) : Instr :=
  match op with
  | .adc => .adc o
  | .and => .and o
  | .asl => .asl o
  | .bcc => .bcc o
  | .bcs => .bcs o
  | .beq => .beq o
  | .bit => .bit o
  | .bmi => .bmi o
  | .bne => .bne o
  | .bpl => .bpl o
  | .brk => .brk o
  | .bvc => .bvc o
  | .bvs => .bvs o
  | .clc => .clc o
  | .cld => .cld o
  | .cli => .cli o
  | .clv => .clv o
  | .cmp => .cmp o
  | .cpx => .cpx o
  | .cpy => .cpy o
  | .dec => .dec o
  | .dex => .dex o
  | .dey => .dey o
  | .eor => .eor o
  | .inc => .inc o
  | .inx => .inx o
  | .iny => .iny o
  | .jmp => .jmp o
  | .jsr => .jsr o
  | .lda => .lda o
  | .ldx => .ldx o
  | .ldy => .ldy o
  | .lsr => .lsr o
  | .nop => .nop o
  | .ora => .ora o
  | .pha => .pha o
  | .php => .php o
  | .pla => .pla o
  | .plp => .plp o
  | .rol => .rol o
  | .ror => .ror o
  | .rti => .rti o
  | .rts => .rts o
  | .sbc => .sbc o
  | .sec => .sec o
  | .sed => .sed o
  | .sei => .sei o
  | .sta => .sta o
  | .stx => .stx o
  | .sty => .sty o
  | .tax => .tax o
  | .tay => .tay o
  | .tsx => .tsx o
  | .txa => .txa o
  | .txs => .txs o
  | .tya => .tya o

/-- The instruction a row and its operand bytes give (R83). -/
def Row.instr (r : Row) (ops : List Byte) : Instr := makeInstr r.operation (assemble r.mode ops)

/-! ### Decoding and encoding byte lists -/

/-- Why a byte list is no instruction. -/
inductive DecodeError where
  /-- The opcode byte has no row: `DecodeFailure(byte)` in a step (R88). -/
  | unknownOpcode (b : Byte)
  /-- The list ends before the instruction does: no case of a step, which reads the bytes it needs. -/
  | truncated
deriving DecidableEq, Repr

/-- Decodes the first instruction of a byte list and gives the rest of the list (R80, R90). -/
def decode (t : Optab) : List Byte → Except DecodeError (Instr × List Byte)
  | [] => .error .truncated
  | b :: rest =>
    match t.lookup b with
    | none => .error (.unknownOpcode b)
    | some r =>
      if rest.length < operandCount r.mode then .error .truncated
      else .ok (r.instr (rest.take (operandCount r.mode)), rest.drop (operandCount r.mode))

/-- The opcode byte of the first row of a list with the operation and the mode (R86, R94). -/
def findPair (op : Operation) (m : Mode) : List Row → Option Byte
  | [] => none
  | r :: rest => if r.operation = op ∧ r.mode = m then some r.opcode else findPair op m rest

/-- The bytes of an instruction under the default table, or none where the table does not pair its operation
with its operand form: opcode, `op1`, `op2` (R81, R92). -/
def encode (i : Instr) : Option (List Byte) :=
  (findPair i.operation i.operand.mode standardRows).map (· :: operandBytes i.operand)

/-! ### Words numbered as the opcode table numbers them -/

/-- The three bytes at ascending addresses of an instruction whose table bits are `w`: byte `k` is bits
`8k+7 : 8k`, and every bit at or above `nbits` is 0. -/
def tableWordBytes (nbits w : Nat) : List Byte :=
  let v := w % 2 ^ nbits
  [BitVec.ofNat 8 v, BitVec.ofNat 8 (v / 256), BitVec.ofNat 8 (v / 65536)]

/-- What the decoder reads, under the default table, from an instruction whose table bits are `w`. -/
def decodeTableWord (nbits w : Nat) : Option Instr :=
  match decode .standard (tableWordBytes nbits w) with
  | .ok (i, _) => some i
  | .error _ => none

end Sys2Proof
end

