-- ==== Sys2Proof/Machine/State.lean ====
section
/-! DEFINITION. The state (spec/10_state.md), the parameters a run fixes (00_scope R3, 10_state R36), the four
fault kinds (60_exceptions R250 to R254), and the state after reset (R35, R280). -/

namespace Sys2Proof.Machine

/-! ### Faults of the core and the sequencer's state -/

/-- What an operation asked the resolver for when it raised `InvalidAddressing` (R251). -/
inductive Request where
  | byte
  | location
  | address
deriving DecidableEq, Repr

/-- The four fault kinds of the core, with the information each records (R250 to R254). A step that raises one
answers a NEXT state whose `run` is `faulted` of it (R8, R256; log 8). -/
inductive FaultKind where
  /-- The opcode byte has no row in `OPTAB` (R250). -/
  | decodeFailure (opcode : Byte)
  /-- An operation asked a mode for what it cannot give (R251). -/
  | invalidAddressing (mode : Mode) (request : Request)
  /-- The operation has no semantic mapping (R252). -/
  | unimplementedOperation (operation : Operation)
  /-- The platform failed a bus access (R254). -/
  | busFailure (address : Addr)
deriving DecidableEq, Repr

/-- `RUN`, the state of the fetch-execute sequencer (R32). -/
inductive RunState where
  | running
  | halted
  | faulted (k : FaultKind)
deriving DecidableEq, Repr

/-- `VEC`, the VectorSet latched at construction (R31). -/
structure VectorSet where
  nmi : Addr
  reset : Addr
  irq : Addr
deriving DecidableEq, Repr

/-! ### Memory and the platform behind the bus -/

/-- Memory in canonical form (`Memory.wf`): addresses strictly rising, all below 65,536 (R50), and no entry
equal to what an unlisted address reads as (log 3). -/
abbrev Memory := List Host.Cell

/-- `m` lists only addresses from `lo` up, strictly rising and below 65,536, none with the unlisted byte. -/
def Memory.wfFrom (lo : Nat) : Memory → Bool
  | [] => true
  | (k, v) :: rest =>
    decide (lo ≤ k) && decide (k < 65536) && decide (v ≠ Config.unlistedByte) && Memory.wfFrom (k + 1) rest

/-- The canonical form of memory. -/
def Memory.wf (m : Memory) : Bool := Memory.wfFrom 0 m

/-- The addresses from `first` to `last`, both included. -/
structure Window where
  first : Addr
  last : Addr
deriving DecidableEq, Repr

/-- One byte of memory the platform changes: the address, and the byte it puts there, none where the platform's
description leaves the byte open (a free value, log 26). -/
structure Change where
  addr : Addr
  byte : Option Byte
deriving DecidableEq, Repr

/-- A read side effect (00_scope R3, R62): a read of an address in the window makes the platform change memory
after it has answered. -/
structure ReadEffect where
  window : Window
  changes : List Change
deriving DecidableEq, Repr

/-- The OPEN parameter `Platform` (00_scope R3): the addresses whose read fails, those whose write fails (R61),
and the side effects of reads (R62); its memory is `State.mem` (log 4). -/
structure Platform where
  readFails : List Window
  writeFails : List Window
  readEffects : List ReadEffect
deriving DecidableEq, Repr

/-- The parameters of the step, fixed for a run and no state of the core (00_scope R3, 10_state R36; log 5). -/
structure Params where
  optab : Optab
  haltEnable : Bool
  haltBoundary : Addr
  platform : Platform
deriving DecidableEq, Repr

/-- One access on the bus (R54, R63). -/
inductive Access where
  | read (a : Addr)
  | write (a : Addr) (v : Byte)
deriving DecidableEq, Repr

/-! ### The state -/

/-- The machine: the six registers (R20), the latched vectors (R31), the sequencer's state (R32), the memory
behind the bus (R50), the run's parameters (R36), and the model's own fields: the count of free bytes taken
(log 26) and the record of bus accesses (log 6). -/
structure State where
  /-- `A`, the accumulator (R21). -/
  a : Byte
  /-- `X`, index register (R22). -/
  x : Byte
  /-- `Y`, index register (R23). -/
  y : Byte
  /-- `S`, stack pointer (R24). -/
  s : Byte
  /-- `P`, the status byte `NV BL BR DIZC` (R26, R30). -/
  p : Byte
  /-- `PC`, program counter (R25). -/
  pc : Addr
  /-- `VEC` (R31). -/
  vec : VectorSet
  /-- `RUN` (R32). -/
  run : RunState
  /-- The memory behind the bus (R50). -/
  mem : Memory
  /-- The parameters of the run (R36; log 5). -/
  params : Params
  /-- MODEL field: how many free bytes the platform has put into memory (log 26). -/
  freeBytes : Nat
  /-- MODEL field: the bus accesses of the latest step or of construction, oldest first (R63; log 6). -/
  accesses : List Access
deriving DecidableEq, Repr

/-- The parameters at their fixed, decided and test-default values (00_scope R3). -/
def Params.standard : Params :=
  { optab := .standard, haltEnable := Config.haltEnable, haltBoundary := Config.haltBoundary,
    platform := { readFails := [], writeFails := [], readEffects := [] } }

/-- The machine right after construction over empty memory with the default parameters (R35, R280). `A`, `X`,
`Y` and `P` are OPEN in the spec and 0x00 here (DESIGN CHOICE, log 2); the vectors and so `PC` are what empty
memory reads as (log 3); construction with any other values is `construct` (Machine/Construct.lean). -/
def State.reset : State :=
  { a := 0x00, x := 0x00, y := 0x00, s := Config.resetS, p := 0x00, pc := 0x0000,
    vec := { nmi := 0x0000, reset := 0x0000, irq := 0x0000 }, run := .running, mem := [],
    params := Params.standard, freeBytes := 0,
    accesses := [.read 0xFFFA, .read 0xFFFB, .read 0xFFFC, .read 0xFFFD, .read 0xFFFE, .read 0xFFFF] }

/-! ### Why there is no step -/

/-- Why `step` gives no state: the core has a step only while `RUN` is `Running` (R9, R100). No meaning of an
instruction raises these; the core's own four faults are `FaultKind`. -/
inductive Fault where
  /-- Raised by `step` when `RUN` is `Halted`: the normal end of a run (R14, R259). Safe: the run has ended. -/
  | halted
  /-- Raised by `step` when `RUN` is `Faulted(k)`: the run ended by a fault (R256). Safe: the run has ended. -/
  | ended (k : FaultKind)
deriving DecidableEq, Repr

/-- Instructions without a meaning. -/
inductive Refusal where
  /-- Raised by `exec` for an instruction not modelled yet: none is. Safe: nothing is claimed of it. -/
  | notModelled (mnemonic : String)
deriving DecidableEq, Repr

end Sys2Proof.Machine
end

