-- ==== Sys2Proof/Machine/Flags.lean ====
section
/-! DEFINITION. The status byte `P` and every flag computation (spec/10_state.md R26 to R30,
spec/41_arithmetic_adc.md R140 to R142). -/

namespace Sys2Proof.Machine

/-- The eight flags, bit 7 to bit 0 (R26). -/
inductive Flag where
  | negative | overflow | breakLeft | breakRight | decimal | interruptDisable | zero | carry
deriving DecidableEq, Repr

/-- The bit position of a flag in `P` (R26). -/
def flagBit : Flag → Nat
  | .negative => 7
  | .overflow => 6
  | .breakLeft => 5
  | .breakRight => 4
  | .decimal => 3
  | .interruptDisable => 2
  | .zero => 1
  | .carry => 0

/-- The flag's bit in a status byte. -/
def getFlag (f : Flag) (p : Byte) : Bool := p.getLsbD (flagBit f)

/-- The mask of a flag (R26). -/
def flagMask (f : Flag) : Byte := 1#8 <<< flagBit f

/-- The status byte with one flag assigned and the other seven kept. -/
def putFlag (f : Flag) (v : Bool) (p : Byte) : Byte :=
  if v then p ||| flagMask f else p &&& ~~~flagMask f

/-- `P.Z <- (r == 0); P.N <- r[7]`, each assigned (R27, R159, R166; D12, log 13). -/
def putZeroNegative (r : Byte) (p : Byte) : Byte :=
  putFlag .negative r.msb (putFlag .zero (r == 0) p)

/-- ADC's sum `a +_8 i +_8 c` (R140). `P.D` plays no part (R143). -/
def adcSum (a i : Byte) (c : Bool) : Byte := a + i + (if c then 1 else 0)

/-- ADC's carry test: the result below the input, unsigned (R140, R141). -/
def adcCarry (i r : Byte) : Bool := r.ult i

/-- ADC's overflow test: the sign of the old accumulator against the sign of the result (R140, R142). -/
def adcOverflow (a r : Byte) : Bool := a.msb != r.msb

/-- The status byte after ADC: C, Z, V, N assigned, the other four kept (R140). -/
def adcStatus (a i r : Byte) (p : Byte) : Byte :=
  putZeroNegative r (putFlag .overflow (adcOverflow a r) (putFlag .carry (adcCarry i r) p))

end Sys2Proof.Machine
end

