-- ==== Sys2Proof/Machine/Ops.lean ====
section
/-! DEFINITION. The named operations over memory, bus and registers (spec/20_memory.md R50 to R61), and taking
a fault (spec/60_exceptions.md R256). There is no return from a fault (R258). -/

namespace Sys2Proof.Machine

/-! ### Memory -/

/-- `M[a]` (R50): the listed byte, or what an unlisted address reads as (log 3). -/
def Memory.read : Memory → Nat → Byte
  | [], _ => Config.unlistedByte
  | (k, v) :: rest, a => if k = a then v else Memory.read rest a

/-- `M[a] <- v`, keeping the canonical form: writing the unlisted byte removes the entry. -/
def Memory.write : Memory → Nat → Byte → Memory
  | [], a, v => if v = Config.unlistedByte then [] else [(a, v)]
  | (k, w) :: rest, a, v =>
    if a < k then (if v = Config.unlistedByte then (k, w) :: rest else (a, v) :: (k, w) :: rest)
    else if a = k then (if v = Config.unlistedByte then rest else (a, v) :: rest)
    else (k, w) :: Memory.write rest a v

/-- Puts bytes at ascending addresses from `a`, modulo 65,536: how a memory image is given (R13, R283). -/
def Memory.load (m : Memory) (a : Addr) : List Byte → Memory
  | [] => m
  | b :: rest => Memory.load (m.write a.toNat b) (a + 1) rest

/-- Makes the platform's changes to memory in order, each open byte the next free value; answers the memory and
the count of free values taken (log 26). -/
def Memory.applyChanges : List Change → Memory → Nat → Memory × Nat
  | [], m, n => (m, n)
  | c :: rest, m, n =>
    match c.byte with
    | some v => Memory.applyChanges rest (m.write c.addr.toNat v) n
    | none => Memory.applyChanges rest (m.write c.addr.toNat (Config.platformByte n)) (n + 1)

/-! ### Registers -/

/-- `A <- v`. -/
def State.setA (v : Byte) (s : State) : State := { s with a := v }

/-- `X <- v`. -/
def State.setX (v : Byte) (s : State) : State := { s with x := v }

/-- `Y <- v`. -/
def State.setY (v : Byte) (s : State) : State := { s with y := v }

/-- `P <- v`. -/
def State.setP (v : Byte) (s : State) : State := { s with p := v }

/-- `PC <- t`. -/
def State.setPc (t : Addr) (s : State) : State := { s with pc := t }

/-- `PC <- PC +_16 n` (R25, R103, R110). -/
def State.advance (n : Nat) (s : State) : State := s.setPc (s.pc + BitVec.ofNat 16 n)

/-- One flag of `P` (R6). -/
def State.flag (f : Flag) (s : State) : Bool := getFlag f s.p

/-- Assigns one flag of `P`. -/
def State.setFlag (f : Flag) (v : Bool) (s : State) : State := s.setP (putFlag f v s.p)

/-- Sets Zero and Negative from a byte (R27). -/
def State.setZeroNegative (r : Byte) (s : State) : State := s.setP (putZeroNegative r s.p)

/-- The primitive `SetBreakInterrupt` (R28); invoked by no step. -/
def State.setBreakInterrupt (s : State) : State :=
  (s.setFlag .breakLeft true).setFlag .breakRight true

/-- The primitive `SetBreakInstruction` (R29); invoked by no step. -/
def State.setBreakInstruction (s : State) : State :=
  (s.setFlag .breakLeft true).setFlag .breakRight false

/-! ### Taking a fault -/

/-- `raise K(info)`: the step ends here, `RUN <- Faulted(K(info))` and nothing else is written (R8, R256). -/
def State.raise (k : FaultKind) (s : State) : State := { s with run := .faulted k }

/-- What a piece of a step gives: a value and the state so far, or the state after a fault, which ends the
step (R8). -/
inductive Attempt (α : Type) where
  | ok (v : α) (s : State)
  | raised (s : State)
deriving DecidableEq, Repr

/-- Goes on with the value where the first piece raised no fault. -/
def Attempt.andThen {α β : Type} (r : Attempt α) (f : α → State → Attempt β) : Attempt β :=
  match r with
  | .ok v s => f v s
  | .raised s => .raised s

/-! ### The bus -/

/-- The address lies in the window. -/
def Window.contains (w : Window) (a : Addr) : Bool := w.first.ule a && a.ule w.last

/-- The platform fails a read of the address (R61). -/
def Platform.failsRead (p : Platform) (a : Addr) : Bool := p.readFails.any (·.contains a)

/-- The platform fails a write of the address (R61). -/
def Platform.failsWrite (p : Platform) (a : Addr) : Bool := p.writeFails.any (·.contains a)

/-- A read of the address fails on this run's platform. -/
def State.readFails (s : State) (a : Addr) : Bool := s.params.platform.failsRead a

/-- A write of the address fails on this run's platform. -/
def State.writeFails (s : State) (a : Addr) : Bool := s.params.platform.failsWrite a

/-- Records an access, the failing one too (R63, R257). -/
def State.logAccess (x : Access) (s : State) : State := { s with accesses := s.accesses ++ [x] }

/-- The byte a read of the address returns where it does not fail (R50). -/
def State.byteAt (s : State) (a : Addr) : Byte := s.mem.read a.toNat

/-- `zext_16(b)` (00_scope R5). -/
def zext16 (b : Byte) : Addr := b.setWidth 16

/-- What the platform changes after it has answered a read of the address (R62). -/
def Platform.changesOnRead (p : Platform) (a : Addr) : List Change :=
  (p.readEffects.filter (·.window.contains a)).flatMap (·.changes)

/-- The platform changes memory: after a read (R62), or by itself between two steps (00_scope R12; log 4). -/
def State.platformChanges (cs : List Change) (s : State) : State :=
  { s with mem := (s.mem.applyChanges cs s.freeBytes).1, freeBytes := (s.mem.applyChanges cs s.freeBytes).2 }

/-- A read of the address answered: the access recorded, then the platform's side effects (R62; log 4). -/
def State.afterRead (a : Addr) (s : State) : State :=
  (s.logAccess (.read a)).platformChanges (s.params.platform.changesOnRead a)

/-- A read of the address failed: the access recorded, `BusFailure(a)` raised, no side effect (R61; log 4). -/
def State.failedRead (a : Addr) (s : State) : State :=
  (s.logAccess (.read a)).raise (.busFailure a)

/-- `MemRead(a, 1)`: the byte `M[a]` as the platform holds it at that moment, or `BusFailure(a)` (R56, R61, R65). -/
def State.busRead (a : Addr) (s : State) : Attempt Byte :=
  if s.readFails a then .raised (s.failedRead a) else .ok (s.byteAt a) (s.afterRead a)

/-- `MemRead(a, 2)`: low byte at `a`, then high byte at `a +_16 1` (R57). -/
def State.busRead16 (a : Addr) (s : State) : Attempt Addr :=
  (s.busRead a).andThen fun lo t => (t.busRead (a + 1)).andThen fun hi u => .ok (joinBytes hi lo) u

/-- `MemReadZP(z)`: both bytes in the zero page, the second at `z +_8 1` (R58). -/
def State.busReadZP (z : Byte) (s : State) : Attempt Addr :=
  (s.busRead (zext16 z)).andThen fun lo t =>
    (t.busRead (zext16 (z + 1))).andThen fun hi u => .ok (joinBytes hi lo) u

/-- `MemReadN(a, n)`: `n` bytes in ascending address order, modulo 65,536 (R59). -/
def State.busReadN : Nat → Addr → State → Attempt (List Byte)
  | 0, _, s => .ok [] s
  | n + 1, a, s =>
    (s.busRead a).andThen fun b t => (t.busReadN n (a + 1)).andThen fun bs u => .ok (b :: bs) u

/-- `MemWrite(a, 1, v)`: stores the byte, or `BusFailure(a)`; used by no instruction (R60). -/
def State.busWrite (a : Addr) (v : Byte) (s : State) : Attempt Unit :=
  if s.writeFails a then .raised ((s.logAccess (.write a v)).raise (.busFailure a))
  else .ok () { s.logAccess (.write a v) with mem := s.mem.write a.toNat v }

/-! ### Placing an instruction -/

/-- The state with the instruction of the table word `w` in memory at `PC`: three bytes, those above `nbits`
zero (log 24). -/
def State.placeInstruction (s : State) (nbits w : Nat) : State :=
  { s with mem := s.mem.load s.pc (tableWordBytes nbits w) }

end Sys2Proof.Machine
end

