-- ==== Sys2Proof/Machine/Operands.lean ====
section
/-! DEFINITION. The addressing-mode resolver (spec/40_step_and_addressing.md R109 to R129) and the shape every
operation's execution has (R106). -/

namespace Sys2Proof.Machine

/-- ResolvedLocation (00_scope R15, R109). -/
inductive Location where
  | accumulator
  | memory (ea : Addr)
  | none
deriving DecidableEq, Repr

/-- The fault of a byte request the mode cannot answer (R111; Relative and Implied by D19, log 16). -/
def byteFault : Operand → Option FaultKind
  | .implied => some (.invalidAddressing .implied .byte)
  | .accumulator => some (.invalidAddressing .accumulator .byte)
  | .relative _ => some (.invalidAddressing .relative .byte)
  | .immediate _ | .zeroPage _ | .zeroPageX _ | .zeroPageY _ | .absolute _ | .absoluteX _ | .absoluteY _
  | .indirect _ | .indirectX _ | .indirectY _ => none

/-- The fault of an address request the mode cannot answer: Relative gives no location (R113), the other three
a location that is no memory address (R112; D19, log 16). -/
def addressFault : Operand → Option FaultKind
  | .relative _ => some (.invalidAddressing .relative .location)
  | .implied => some (.invalidAddressing .implied .address)
  | .accumulator => some (.invalidAddressing .accumulator .address)
  | .immediate _ => some (.invalidAddressing .immediate .address)
  | .zeroPage _ | .zeroPageX _ | .zeroPageY _ | .absolute _ | .absoluteX _ | .absoluteY _
  | .indirect _ | .indirectX _ | .indirectY _ => none

/-- `ResolveLocation(mode, ops)` (R112 to R125): reads `X`, `Y` and the bus, writes no register. -/
def State.resolveLocation (o : Operand) (s : State) : Attempt Location :=
  match o with
  | .implied => .ok .none s
  | .accumulator => .ok .accumulator s
  | .immediate _ => .ok .none s
  | .relative _ => .raised (s.raise (.invalidAddressing .relative .location))
  | .zeroPage z => .ok (.memory (zext16 z)) s
  | .zeroPageX z => .ok (.memory (zext16 (z + s.x))) s
  | .zeroPageY z => .ok (.memory (zext16 (z + s.y))) s
  | .absolute w => .ok (.memory w) s
  | .absoluteX w => .ok (.memory (w + zext16 s.x)) s
  | .absoluteY w => .ok (.memory (w + zext16 s.y)) s
  | .indirect w => (s.busRead16 w).andThen fun ea t => .ok (.memory ea) t
  | .indirectX z => (s.busReadZP (z + s.x)).andThen fun ea t => .ok (.memory ea) t
  | .indirectY z => (s.busReadZP z).andThen fun base t => .ok (.memory (base + zext16 s.y)) t

/-- `ResolveAddress(mode, ops)` (R112): the location's address, or `InvalidAddressing`. -/
def State.resolveAddress (o : Operand) (s : State) : Attempt Addr :=
  (s.resolveLocation o).andThen fun loc t =>
    match loc with
    | .memory ea => .ok ea t
    | .accumulator | .none => .raised (t.raise (.invalidAddressing o.mode .address))

/-- `ResolveByte(mode, ops)` (R111). -/
def State.resolveByte (o : Operand) (s : State) : Attempt Byte :=
  match byteFault o, o with
  | some k, _ => .raised (s.raise k)
  | none, .immediate v => .ok v s
  | none, o => (s.resolveAddress o).andThen fun ea t => t.busRead ea

/-- Operand consumption: `PC <- PC +_16 OperandCount(mode)` (R110; D4, log 10). -/
def State.consume (o : Operand) (s : State) : State := s.advance (operandCount o.mode)

/-- A meaning's answer: the state after the operation, or the state after a fault of the core. -/
abbrev Answer := Host.Outcome State Fault Refusal

/-- An operation with a byte input (R106): legality, operand consumption, reads, then `f`. -/
def withByte (o : Operand) (s : State) (f : Byte → State → State) : Answer :=
  match byteFault o with
  | some k => .next (s.raise k)
  | none =>
    match (s.consume o).resolveByte o with
    | .ok v t => .next (f v t)
    | .raised t => .next t

/-- An operation with an address input (R106): legality, operand consumption, reads, then `f`. -/
def withAddress (o : Operand) (s : State) (f : Addr → State → State) : Answer :=
  match addressFault o with
  | some k => .next (s.raise k)
  | none =>
    match (s.consume o).resolveAddress o with
    | .ok ea t => .next (f ea t)
    | .raised t => .next t

/-- An operation without an input (R106, R110): operand consumption, then `f`. -/
def withoutInput (o : Operand) (s : State) (f : State → State) : Answer := .next (f (s.consume o))

/-- Dispatch of an operation without a semantic mapping: `raise UnimplementedOperation(operation)`, nothing
resolved, `PC` not moved past the operand bytes (R105, R200; D24, log 14). -/
def unimplemented (op : Operation) (s : State) : Answer := .next (s.raise (.unimplementedOperation op))

end Sys2Proof.Machine
end

