-- ==== Sys2Proof/Machine/Arithmetic.lean ====
section
/-! DEFINITION. ADC (spec/41_arithmetic_adc.md R140 to R143). -/

namespace Sys2Proof.Machine

/-- `A`, C, Z, V and N from the old `A`, the old carry and the input byte (R140). -/
def State.addWithCarry (i : Byte) (s : State) : State :=
  let r := adcSum s.a i (s.flag .carry)
  (s.setP (adcStatus s.a i r s.p)).setA r

/-- ADC, add with carry (R140). -/
def execAdc (o : Operand) (s : State) : Answer := withByte o s State.addWithCarry

end Sys2Proof.Machine
end

