-- ==== Sys2Proof/Machine/FlagControl.lean ====
section
/-! DEFINITION. The seven flag-control operations (spec/43_flag_control.md R149 to R156). Which flag each mnemonic names is
PRESUMED (G4, log 23). -/

namespace Sys2Proof.Machine

/-- CLC, clear carry (R150). -/
def execClc (o : Operand) (s : State) : Answer := withoutInput o s (State.setFlag .carry false)

/-- CLD, clear decimal (R151). -/
def execCld (o : Operand) (s : State) : Answer := withoutInput o s (State.setFlag .decimal false)

/-- CLI, clear interrupt disable (R152). -/
def execCli (o : Operand) (s : State) : Answer := withoutInput o s (State.setFlag .interruptDisable false)

/-- CLV, clear overflow (R153). -/
def execClv (o : Operand) (s : State) : Answer := withoutInput o s (State.setFlag .overflow false)

/-- SEC, set carry (R154). -/
def execSec (o : Operand) (s : State) : Answer := withoutInput o s (State.setFlag .carry true)

/-- SED, set decimal (R155). -/
def execSed (o : Operand) (s : State) : Answer := withoutInput o s (State.setFlag .decimal true)

/-- SEI, set interrupt disable (R156). -/
def execSei (o : Operand) (s : State) : Answer := withoutInput o s (State.setFlag .interruptDisable true)

end Sys2Proof.Machine
end

