-- ==== Sys2Proof/Machine/Increment.lean ====
section
/-! DEFINITION. INX and INY (spec/45_increment.md R166, R167). -/

namespace Sys2Proof.Machine

/-- INX, increment X, 8-bit wraparound, no carry effect (R166). -/
def execInx (o : Operand) (s : State) : Answer :=
  withoutInput o s fun t => (t.setX (t.x + 1)).setZeroNegative (t.x + 1)

/-- INY, increment Y, 8-bit wraparound, no carry effect (R167). -/
def execIny (o : Operand) (s : State) : Answer :=
  withoutInput o s fun t => (t.setY (t.y + 1)).setZeroNegative (t.y + 1)

end Sys2Proof.Machine
end

