-- ==== Sys2Proof/Machine/Jump.lean ====
section
/-! DEFINITION. JMP (spec/42_jump.md R145). -/

namespace Sys2Proof.Machine

/-- JMP, unconditional jump: `PC` becomes the resolved address, no flag changes (R145). -/
def execJmp (o : Operand) (s : State) : Answer := withAddress o s State.setPc

end Sys2Proof.Machine
end

