-- ==== Sys2Proof/Machine/System.lean ====
section
/-! DEFINITION. NOP (spec/46_nop.md R170). -/

namespace Sys2Proof.Machine

/-- NOP, no operation: only the sequencer moves `PC` (R170). -/
def execNop (o : Operand) (s : State) : Answer := withoutInput o s fun t => t

end Sys2Proof.Machine
end

