-- ==== Sys2Proof/Machine/Transfer.lean ====
section
/-! DEFINITION. The four register transfers (spec/44_transfer.md R159 to R163). Source and destination follow the
mnemonic (PRESUMED, G4, log 23). -/

namespace Sys2Proof.Machine

/-- TAX, transfer A to X (R160). -/
def execTax (o : Operand) (s : State) : Answer :=
  withoutInput o s fun t => (t.setX t.a).setZeroNegative t.a

/-- TAY, transfer A to Y (R161). -/
def execTay (o : Operand) (s : State) : Answer :=
  withoutInput o s fun t => (t.setY t.a).setZeroNegative t.a

/-- TXA, transfer X to A (R162). -/
def execTxa (o : Operand) (s : State) : Answer :=
  withoutInput o s fun t => (t.setA t.x).setZeroNegative t.x

/-- TYA, transfer Y to A (R163). -/
def execTya (o : Operand) (s : State) : Answer :=
  withoutInput o s fun t => (t.setA t.y).setZeroNegative t.y

end Sys2Proof.Machine
end

