-- ==== Sys2Proof/Machine/UnimplementedControl.lean ====
section
/-! DEFINITION. The 16 control, stack and system operations that decode and then raise `UnimplementedOperation`
(spec/48_unimplemented_control_stack_system.md R229 to R245). Their conventional 6502 behaviour is "NOT what
this core does"; BRK writes no break bit (R239). -/

namespace Sys2Proof.Machine

/-- BCC: decodes, then faults (R230, R200). -/
def execBcc (_ : Operand) (s : State) : Answer := unimplemented .bcc s

/-- BCS: decodes, then faults (R231, R200). -/
def execBcs (_ : Operand) (s : State) : Answer := unimplemented .bcs s

/-- BEQ: decodes, then faults (R232, R200). -/
def execBeq (_ : Operand) (s : State) : Answer := unimplemented .beq s

/-- BMI: decodes, then faults (R233, R200). -/
def execBmi (_ : Operand) (s : State) : Answer := unimplemented .bmi s

/-- BNE: decodes, then faults (R234, R200). -/
def execBne (_ : Operand) (s : State) : Answer := unimplemented .bne s

/-- BPL: decodes, then faults (R235, R200). -/
def execBpl (_ : Operand) (s : State) : Answer := unimplemented .bpl s

/-- BVC: decodes, then faults (R236, R200). -/
def execBvc (_ : Operand) (s : State) : Answer := unimplemented .bvc s

/-- BVS: decodes, then faults (R237, R200). -/
def execBvs (_ : Operand) (s : State) : Answer := unimplemented .bvs s

/-- JSR: decodes, then faults (R238, R200). -/
def execJsr (_ : Operand) (s : State) : Answer := unimplemented .jsr s

/-- BRK: decodes, then faults (R239, R200). -/
def execBrk (_ : Operand) (s : State) : Answer := unimplemented .brk s

/-- RTI: decodes, then faults (R240, R200). -/
def execRti (_ : Operand) (s : State) : Answer := unimplemented .rti s

/-- RTS: decodes, then faults (R241, R200). -/
def execRts (_ : Operand) (s : State) : Answer := unimplemented .rts s

/-- PHA: decodes, then faults (R242, R200). -/
def execPha (_ : Operand) (s : State) : Answer := unimplemented .pha s

/-- PHP: decodes, then faults (R243, R200). -/
def execPhp (_ : Operand) (s : State) : Answer := unimplemented .php s

/-- PLA: decodes, then faults (R244, R200). -/
def execPla (_ : Operand) (s : State) : Answer := unimplemented .pla s

/-- PLP: decodes, then faults (R245, R200). -/
def execPlp (_ : Operand) (s : State) : Answer := unimplemented .plp s

end Sys2Proof.Machine
end

