-- ==== Sys2Proof/Machine/UnimplementedData.lean ====
section
/-! DEFINITION. The 24 data operations that decode and then raise `UnimplementedOperation` (spec/47_unimplemented_data_ops.md
R200 to R224). Their conventional 6502 behaviour is "NOT what this core does". -/

namespace Sys2Proof.Machine

/-- AND: decodes, then faults (R201, R200). -/
def execAnd (_ : Operand) (s : State) : Answer := unimplemented .and s

/-- ASL: decodes, then faults (R202, R200). -/
def execAsl (_ : Operand) (s : State) : Answer := unimplemented .asl s

/-- BIT: decodes, then faults (R203, R200). -/
def execBit (_ : Operand) (s : State) : Answer := unimplemented .bit s

/-- CMP: decodes, then faults (R204, R200). -/
def execCmp (_ : Operand) (s : State) : Answer := unimplemented .cmp s

/-- CPX: decodes, then faults (R205, R200). -/
def execCpx (_ : Operand) (s : State) : Answer := unimplemented .cpx s

/-- CPY: decodes, then faults (R206, R200). -/
def execCpy (_ : Operand) (s : State) : Answer := unimplemented .cpy s

/-- DEC: decodes, then faults (R207, R200). -/
def execDec (_ : Operand) (s : State) : Answer := unimplemented .dec s

/-- DEX: decodes, then faults (R208, R200). -/
def execDex (_ : Operand) (s : State) : Answer := unimplemented .dex s

/-- DEY: decodes, then faults (R209, R200). -/
def execDey (_ : Operand) (s : State) : Answer := unimplemented .dey s

/-- EOR: decodes, then faults (R210, R200). -/
def execEor (_ : Operand) (s : State) : Answer := unimplemented .eor s

/-- INC: decodes, then faults (R211, R200). -/
def execInc (_ : Operand) (s : State) : Answer := unimplemented .inc s

/-- LDA: decodes, then faults (R212, R200). -/
def execLda (_ : Operand) (s : State) : Answer := unimplemented .lda s

/-- LDX: decodes, then faults (R213, R200). -/
def execLdx (_ : Operand) (s : State) : Answer := unimplemented .ldx s

/-- LDY: decodes, then faults (R214, R200). -/
def execLdy (_ : Operand) (s : State) : Answer := unimplemented .ldy s

/-- LSR: decodes, then faults (R215, R200). -/
def execLsr (_ : Operand) (s : State) : Answer := unimplemented .lsr s

/-- ORA: decodes, then faults (R216, R200). -/
def execOra (_ : Operand) (s : State) : Answer := unimplemented .ora s

/-- ROL: decodes, then faults (R217, R200). -/
def execRol (_ : Operand) (s : State) : Answer := unimplemented .rol s

/-- ROR: decodes, then faults (R218, R200). -/
def execRor (_ : Operand) (s : State) : Answer := unimplemented .ror s

/-- SBC: decodes, then faults (R219, R200). -/
def execSbc (_ : Operand) (s : State) : Answer := unimplemented .sbc s

/-- STA: decodes, then faults (R220, R200). -/
def execSta (_ : Operand) (s : State) : Answer := unimplemented .sta s

/-- STX: decodes, then faults (R221, R200). -/
def execStx (_ : Operand) (s : State) : Answer := unimplemented .stx s

/-- STY: decodes, then faults (R222, R200). -/
def execSty (_ : Operand) (s : State) : Answer := unimplemented .sty s

/-- TSX: decodes, then faults (R223, R200). -/
def execTsx (_ : Operand) (s : State) : Answer := unimplemented .tsx s

/-- TXS: decodes, then faults (R224, R200). -/
def execTxs (_ : Operand) (s : State) : Answer := unimplemented .txs s

end Sys2Proof.Machine
end

