-- ==== Sys2Proof/Machine/Dispatch.lean ====
section
/-! DEFINITION. The execution engine's dispatch (spec/40_step_and_addressing.md R105, R106): one arm per
instruction. The state is the one after R101 to R104: `PC` is `PC0 +_16 1` and the operand bytes are read. -/

namespace Sys2Proof.Machine

def exec (i : Instr) (s : State) : Host.Outcome State Fault Refusal :=
  match i with
  | .adc o => Sys2Proof.Machine.execAdc o s
  | .and o => Sys2Proof.Machine.execAnd o s
  | .asl o => Sys2Proof.Machine.execAsl o s
  | .bcc o => Sys2Proof.Machine.execBcc o s
  | .bcs o => Sys2Proof.Machine.execBcs o s
  | .beq o => Sys2Proof.Machine.execBeq o s
  | .bit o => Sys2Proof.Machine.execBit o s
  | .bmi o => Sys2Proof.Machine.execBmi o s
  | .bne o => Sys2Proof.Machine.execBne o s
  | .bpl o => Sys2Proof.Machine.execBpl o s
  | .brk o => Sys2Proof.Machine.execBrk o s
  | .bvc o => Sys2Proof.Machine.execBvc o s
  | .bvs o => Sys2Proof.Machine.execBvs o s
  | .clc o => Sys2Proof.Machine.execClc o s
  | .cld o => Sys2Proof.Machine.execCld o s
  | .cli o => Sys2Proof.Machine.execCli o s
  | .clv o => Sys2Proof.Machine.execClv o s
  | .cmp o => Sys2Proof.Machine.execCmp o s
  | .cpx o => Sys2Proof.Machine.execCpx o s
  | .cpy o => Sys2Proof.Machine.execCpy o s
  | .dec o => Sys2Proof.Machine.execDec o s
  | .dex o => Sys2Proof.Machine.execDex o s
  | .dey o => Sys2Proof.Machine.execDey o s
  | .eor o => Sys2Proof.Machine.execEor o s
  | .inc o => Sys2Proof.Machine.execInc o s
  | .inx o => Sys2Proof.Machine.execInx o s
  | .iny o => Sys2Proof.Machine.execIny o s
  | .jmp o => Sys2Proof.Machine.execJmp o s
  | .jsr o => Sys2Proof.Machine.execJsr o s
  | .lda o => Sys2Proof.Machine.execLda o s
  | .ldx o => Sys2Proof.Machine.execLdx o s
  | .ldy o => Sys2Proof.Machine.execLdy o s
  | .lsr o => Sys2Proof.Machine.execLsr o s
  | .nop o => Sys2Proof.Machine.execNop o s
  | .ora o => Sys2Proof.Machine.execOra o s
  | .pha o => Sys2Proof.Machine.execPha o s
  | .php o => Sys2Proof.Machine.execPhp o s
  | .pla o => Sys2Proof.Machine.execPla o s
  | .plp o => Sys2Proof.Machine.execPlp o s
  | .rol o => Sys2Proof.Machine.execRol o s
  | .ror o => Sys2Proof.Machine.execRor o s
  | .rti o => Sys2Proof.Machine.execRti o s
  | .rts o => Sys2Proof.Machine.execRts o s
  | .sbc o => Sys2Proof.Machine.execSbc o s
  | .sec o => Sys2Proof.Machine.execSec o s
  | .sed o => Sys2Proof.Machine.execSed o s
  | .sei o => Sys2Proof.Machine.execSei o s
  | .sta o => Sys2Proof.Machine.execSta o s
  | .stx o => Sys2Proof.Machine.execStx o s
  | .sty o => Sys2Proof.Machine.execSty o s
  | .tax o => Sys2Proof.Machine.execTax o s
  | .tay o => Sys2Proof.Machine.execTay o s
  | .tsx o => Sys2Proof.Machine.execTsx o s
  | .txa o => Sys2Proof.Machine.execTxa o s
  | .txs o => Sys2Proof.Machine.execTxs o s
  | .tya o => Sys2Proof.Machine.execTya o s

end Sys2Proof.Machine
end

