-- ==== Sys2Proof/Machine/Fetch.lean ====
section
/-! DEFINITION. The part of a step before dispatch (spec/40_step_and_addressing.md R100 to R104): the halt
check, fetch, decode, the advance past the opcode byte, and the operand read. -/

namespace Sys2Proof.Machine

/-- What the part of a step before dispatch gives. -/
inductive Fetched where
  /-- `RUN` is not `Running`: the core has no step (R9, R100). -/
  | noStep (f : Fault)
  /-- The step is over: it halted (R100) or raised a fault (R101, R102, R104). -/
  | over (s : State)
  /-- The instruction to dispatch and the state it is dispatched in (R105). -/
  | ready (i : Instr) (s : State)
deriving DecidableEq, Repr

/-- `HALT_ENABLE and PC >= HALT_BOUNDARY`, an unsigned compare (R100; D5, log 9). -/
def State.atBoundary (s : State) : Bool := s.params.haltEnable && s.params.haltBoundary.ule s.pc

/-- A new step records its own accesses (log 6). -/
def State.beginStep (s : State) : State := { s with accesses := [] }

/-- `RUN <- Halted` (R100). -/
def State.halt (s : State) : State := { s with run := .halted }

/-- The advance past the opcode byte and the operand read of a decoded row (R103, R104). -/
def State.readOperands (r : Row) (s : State) : Fetched :=
  match (s.advance 1).busReadN (operandCount r.mode) (s.pc + 1) with
  | .raised t => .over t
  | .ok ops t => .ready (r.instr ops) t

/-- Fetch and decode at `PC` (R101, R102), then the operand read. -/
def State.fetchInstr (s : State) : Fetched :=
  match s.busRead s.pc with
  | .raised t => .over t
  | .ok b t =>
    match t.params.optab.lookup b with
    | none => .over (t.raise (.decodeFailure b))
    | some r => t.readOperands r

/-- The step up to dispatch (R100 to R104). -/
def State.fetch (s : State) : Fetched :=
  match s.run with
  | .halted => .noStep .halted
  | .faulted k => .noStep (.ended k)
  | .running => if s.atBoundary then .over s.beginStep.halt else s.beginStep.fetchInstr

end Sys2Proof.Machine
end

