-- ==== Sys2Proof/Machine/Step.lean ====
section
/-! DEFINITION. One step of the core (spec/40_step_and_addressing.md R100 to R108). -/

namespace Sys2Proof.Machine

/-- One whole instruction (R108): the part before dispatch, then the instruction's meaning. A fault of the
core is a next state with `RUN = Faulted(k)` (R8, R256); from `Halted` and `Faulted` there is no step (R9). -/
def step (s : State) : Host.Outcome State Fault Refusal :=
  match s.fetch with
  | .noStep f => .fault f
  | .over t => .next t
  | .ready i t => exec i t

/-- The state with the instruction of the table word `w` stored at `PC` (log 24). -/
def State.withFetchWord (s : State) (nbits w : Nat) : State := s.placeInstruction nbits w

end Sys2Proof.Machine
end

