-- ==== Sys2Proof/Machine/Construct.lean ====
section
/-! DEFINITION. Construction, the only reset there is (spec/70_reset_and_hazards.md R280 to R282), and the
host's register preset (spec/00_scope.md R13). -/

namespace Sys2Proof.Machine

/-- The OPEN parameters `RESET_A`, `RESET_X`, `RESET_Y`, `RESET_P` (00_scope R3, 10_state R35). -/
structure ResetValues where
  a : Byte
  x : Byte
  y : Byte
  p : Byte
deriving DecidableEq, Repr

/-- The six registers as one value (10_state R20). -/
structure Registers where
  a : Byte
  x : Byte
  y : Byte
  s : Byte
  p : Byte
  pc : Addr
deriving DecidableEq, Repr

/-- What the state holds where a construction that fails leaves it unspecified (R281, U12): any value, so an
argument that a claim quantifies over (log 19). -/
structure Unspecified where
  regs : Registers
  vec : VectorSet
deriving DecidableEq, Repr

/-- The state with the six registers replaced. -/
def State.withRegisters (r : Registers) (s : State) : State :=
  { s with a := r.a, x := r.x, y := r.y, s := r.s, p := r.p, pc := r.pc }

/-- Before any vector is read: nothing but the parameters, the memory and how many free bytes the platform has
taken before is known (DESIGN CHOICE: the count is an argument, so a restart repeats no free byte; log 26). -/
def unconstructed (u : Unspecified) (params : Params) (mem : Memory) (taken : Nat) : State :=
  { a := u.regs.a, x := u.regs.x, y := u.regs.y, s := u.regs.s, p := u.regs.p, pc := u.regs.pc,
    vec := u.vec, run := .running, mem := mem, params := params, freeBytes := taken, accesses := [] }

/-- The three vector reads in ascending address order, each latched as it is read (R280; D9, log 19). -/
def State.latchVectors (s : State) : Attempt Unit :=
  (s.busRead16 Config.vecNmi).andThen fun nmi t =>
    ({ t with vec := { t.vec with nmi := nmi } }.busRead16 Config.vecReset).andThen fun rst u =>
      ({ u with vec := { u.vec with reset := rst } }.busRead16 Config.vecIrq).andThen fun irq v =>
        .ok () { v with vec := { v.vec with irq := irq } }

/-- Construction over a memory image (R280): the state of R35, or `RUN = Faulted(BusFailure(addr))` with the
vectors read before the failure and the rest unspecified (R281); `taken` free bytes came before (log 26). -/
def construct (u : Unspecified) (r : ResetValues) (params : Params) (mem : Memory) (taken : Nat) : State :=
  match (unconstructed u params mem taken).latchVectors with
  | .raised t => t
  | .ok _ t =>
    { t with a := r.a, x := r.x, y := r.y, p := r.p, s := Config.resetS, pc := t.vec.reset, run := .running }

/-- The host restarts by constructing again over the memory as it is then (R282; D26). The platform's free bytes
go on from the count reached, so those after the restart are no repetition (DESIGN CHOICE, log 26). -/
def State.restart (u : Unspecified) (r : ResetValues) (s : State) : State :=
  construct u r s.params s.mem s.freeBytes

/-- The host sets registers between construction and the first step (00_scope R13; D28, log 20). -/
def State.hostPreset (r : Registers) (s : State) : State := s.withRegisters r

end Sys2Proof.Machine
end

