-- ==== Sys2Proof/Safety.lean ====
section
/-! DEFINITION. The terms claims use: what a step keeps, what counts as a normal end (spec/00_scope.md R14,
spec/60_exceptions.md R256, R259), and the machine's invariant. -/

namespace Sys2Proof.Machine

/-! ### What claims say of addresses and reads -/

/-- `n` ascending addresses from `a`, modulo 65,536: what `MemReadN(a, n)` reads (20_memory R59). -/
def addressesFrom : Nat → Addr → List Addr
  | 0, _ => []
  | n + 1, a => a :: addressesFrom n (a + 1)

/-- The state after reads of these addresses, in order, none failing: each recorded and followed by the
platform's side effects (20_memory R62, R63). -/
def State.afterReads : List Addr → State → State
  | [], s => s
  | a :: rest, s => State.afterReads rest (s.afterRead a)

/-- What those reads answer: each byte as the platform holds it at its moment (20_memory R65). -/
def State.bytesRead : List Addr → State → List Byte
  | [], _ => []
  | a :: rest, s => s.byteAt a :: State.bytesRead rest (s.afterRead a)

/-- The little-endian value of two bytes, the one at `lo` read first (20_memory R52, R57, R58). -/
def State.wordRead (lo hi : Addr) (s : State) : Addr := (s.afterRead lo).byteAt hi ++ s.byteAt lo

/-- None of these reads fails on the run's platform. -/
def State.readable (s : State) (as : List Addr) : Bool := as.all fun a => !s.readFails a

/-- The effective address of the nine memory modes (40_step_and_addressing R126), none for the other four. -/
def effectiveAddress (o : Operand) (s : State) : Option Addr :=
  match o with
  | .implied | .accumulator | .immediate _ | .relative _ => none
  | .zeroPage z => some (0x00#8 ++ z)
  | .zeroPageX z => some (0x00#8 ++ (z + s.x))
  | .zeroPageY z => some (0x00#8 ++ (z + s.y))
  | .absolute w => some w
  | .absoluteX w => some (w + (0x00#8 ++ s.x))
  | .absoluteY w => some (w + (0x00#8 ++ s.y))
  | .indirect w => some (s.wordRead w (w + 1))
  | .indirectX z => some (s.wordRead (0x00#8 ++ (z + s.x)) (0x00#8 ++ (z + s.x + 1)))
  | .indirectY z => some (s.wordRead (0x00#8 ++ z) (0x00#8 ++ (z + 1)) + (0x00#8 ++ s.y))

/-- The resolver's bus reads (R126), low byte first (20_memory R57, R58). -/
def pointerReads (o : Operand) (s : State) : List Addr :=
  match o with
  | .indirect w => [w, w + 1]
  | .indirectX z => [0x00#8 ++ (z + s.x), 0x00#8 ++ (z + s.x + 1)]
  | .indirectY z => [0x00#8 ++ z, 0x00#8 ++ (z + 1)]
  | _ => []

/-- The input byte a mode gives (R111), read after the pointer bytes, none where it gives none. -/
def inputByte (o : Operand) (s : State) : Option Byte :=
  match o with
  | .immediate v => some v
  | o => (effectiveAddress o s).map (s.afterReads (pointerReads o s)).byteAt

/-- The reads of byte resolution: pointer bytes, then the data byte (20_memory R63). -/
def inputReads (o : Operand) (s : State) : List Addr :=
  pointerReads o s ++ (effectiveAddress o s).toList

/-- The state in which a row's operation is dispatched, but for `PC`: its bytes read, nothing else done
(R101 to R104). -/
def State.afterFetch (r : Row) (s : State) : State := s.beginStep.afterReads (addressesFrom r.length s.pc)

/-- The operand a row's instruction has at `PC` (R104). -/
def State.operandAt (r : Row) (s : State) : Operand :=
  assemble r.mode (s.beginStep.bytesRead (addressesFrom r.length s.pc)).tail

/-! ### The ends of a run -/

/-- A run's only normal end (R14). -/
def State.endedNormally (s : State) : Bool := s.run = .halted

/-- A run ended by a fault, never a normal end (R32, R256). -/
def State.endedByFault (s : State) : Bool :=
  match s.run with
  | .faulted _ => true
  | .running | .halted => false

/-- `RUN` holds an `InvalidAddressing` fault. -/
def State.invalidAddressingFault (s : State) : Bool :=
  match s.run with
  | .faulted (.invalidAddressing _ _) => true
  | _ => false

/-- `InvalidAddressing` for a reason (R251): ADC asked for a byte, or JMP for an address, of a mode that gives
none (R111, R112, R113; D19, log 16). -/
def unanswered (op : Operation) (m : Mode) (q : Request) : Prop :=
  (op = .adc ∧ q = .byte ∧ m ∈ [Mode.implied, .accumulator, .relative]) ∨
  (op = .jmp ∧ q = .address ∧ m ∈ [Mode.implied, .accumulator, .immediate]) ∨
  (op = .jmp ∧ q = .location ∧ m = .relative)

/-- The reads an implemented operation makes for its input: ADC a byte, JMP an address, the others none (R63). -/
def operationReads (op : Operation) (o : Operand) (s : State) : List Addr :=
  match op with
  | .adc => inputReads o s
  | .jmp => pointerReads o s
  | _ => []

/-- `t` has the registers and the latched vectors of `s` (R20, R31). -/
def SameRegisters (s t : State) : Prop :=
  t.a = s.a ∧ t.x = s.x ∧ t.y = s.y ∧ t.s = s.s ∧ t.p = s.p ∧ t.pc = s.pc ∧ t.vec = s.vec

/-- A run's memory is changed by the platform's read side effects only: `t` has the memory and the count of free
bytes that the answered reads of its step leave; after them comes the failing read of a step that ended in
`BusFailure`, which has no side effect, and no failing read in any other step (R60, R62). -/
def MemoryByReads (s t : State) : Prop :=
  ∃ answered failed : List Addr, t.accesses = (answered ++ failed).map .read ∧
    ((failed = [] ∧ ∀ a, t.run ≠ .faulted (.busFailure a)) ∨
      ∃ a, failed = [a] ∧ t.run = .faulted (.busFailure a)) ∧
    t.mem = (s.afterReads answered).mem ∧ t.freeBytes = (s.afterReads answered).freeBytes

/-- What no instruction, fault or halt writes: `S` (R24), the latched vectors (R31), the run's parameters (R36),
the two break bits of `P` (R263), and memory (R60), which only the platform's read side effects change (R62). -/
structure Kept (s t : State) : Prop where
  stack : t.s = s.s
  vectors : t.vec = s.vec
  memory : MemoryByReads s t
  flatMemory : s.params.platform.readEffects = [] → t.mem = s.mem
  parameters : t.params = s.params
  breakLeft : t.flag .breakLeft = s.flag .breakLeft
  breakRight : t.flag .breakRight = s.flag .breakRight

/-- The bus accesses of the latest step are reads (R60). -/
def State.onlyReads (s : State) : Bool :=
  s.accesses.all fun | .read _ => true | .write _ _ => false

/-- What holds after construction and is kept by every step under the default table: memory in canonical form,
`S = 0xFF` (R24), no `InvalidAddressing` (R113), no bus write (R60), at most the six accesses of construction
(R63, R280). -/
structure State.Inv (s : State) : Prop where
  memory : s.mem.wf = true
  stack : s.s = Config.resetS
  table : s.params.optab = .standard
  addressing : s.invalidAddressingFault = false
  reads : s.onlyReads = true
  bounded : s.accesses.length ≤ 6

end Sys2Proof.Machine
end

