-- ==== Sys2Proof/Certificates/Slice0/Obligations.lean ====
section
/-! DEFINITION. The statements for the provers, each from numbered rules of spec/. A mark "Dn" is a decision the
spec marks as its own (92_eei_decisions.md); "log n" is notes/assumptions/n.md. -/

open Sys2Proof Sys2Proof.Machine

/-! ### Decoder and encoder -/

/-- Sanity: words of every family, written out from R86 and R83 (numbers PRESUMED, log 1), decode to their instructions. -/
def Obligations.SpecWordsDecode : Prop :=
  decodeTableWord 16 0x1061 = some (.adc (.indirectX 0x10)) ∧
  decodeTableWord 24 0x12346D = some (.adc (.absolute 0x1234)) ∧
  decodeTableWord 16 0x0569 = some (.adc (.immediate 0x05)) ∧
  decodeTableWord 24 0x90004C = some (.jmp (.absolute 0x9000)) ∧
  decodeTableWord 24 0x12346C = some (.jmp (.indirect 0x1234)) ∧
  decodeTableWord 8 0x18 = some (.clc .implied) ∧
  decodeTableWord 8 0x78 = some (.sei .implied) ∧
  decodeTableWord 8 0xAA = some (.tax .implied) ∧
  decodeTableWord 8 0x98 = some (.tya .implied) ∧
  decodeTableWord 8 0xE8 = some (.inx .implied) ∧
  decodeTableWord 8 0xC8 = some (.iny .implied) ∧
  decodeTableWord 8 0xEA = some (.nop .implied) ∧
  decodeTableWord 24 0x20008D = some (.sta (.absolute 0x2000)) ∧
  decodeTableWord 16 0x10B6 = some (.ldx (.zeroPageY 0x10)) ∧
  decodeTableWord 8 0x0A = some (.asl .accumulator) ∧
  decodeTableWord 16 0xFED0 = some (.bne (.relative 0xFE)) ∧
  decodeTableWord 24 0x201020 = some (.jsr (.absolute 0x2010)) ∧
  decodeTableWord 8 0x00 = some (.brk .implied) ∧
  decodeTableWord 8 0x48 = some (.pha .implied)

/-- Decode after encode is the identity on well-formed instructions (R81, R83, R86, R94; table PRESUMED, log 1). -/
def Obligations.EncodedInstructionsDecodeBack : Prop :=
  ∀ (i : Instr) (rest : List Byte), i.wellFormed = true →
    ∃ bytes, encode i = some bytes ∧ decode .standard (bytes ++ rest) = .ok (i, rest)

/-- Encode after decode is the identity on decodable bytes (R86, R94; table PRESUMED, log 1). -/
def Obligations.DecodedBytesEncodeBack : Prop :=
  ∀ (bytes rest : List Byte) (i : Instr), decode .standard bytes = .ok (i, rest) →
    i.wellFormed = true ∧ ∃ word, encode i = some word ∧ bytes = word ++ rest

/-- The 105 illegal bytes of R88 (table PRESUMED, log 1). -/
def Obligations.IllegalBytesAreTheListed : Prop :=
  ∀ b : Byte, Optab.standard.lookup b = none ↔ b ∈ (
    [0x02, 0x03, 0x04, 0x07, 0x0B, 0x0C, 0x0F, 0x12, 0x13, 0x14, 0x17, 0x1A, 0x1B, 0x1C, 0x1F, 0x22, 0x23, 0x27, 0x2B, 0x2F, 0x32, 0x33, 0x34, 0x37, 0x3A, 0x3B, 0x3C, 0x3F, 0x42, 0x43, 0x44, 0x47, 0x4B, 0x4F, 0x52] ++
    [0x53, 0x54, 0x57, 0x5A, 0x5B, 0x5C, 0x5F, 0x62, 0x63, 0x64, 0x67, 0x6B, 0x6F, 0x72, 0x73, 0x74, 0x77, 0x7A, 0x7B, 0x7C, 0x7F, 0x80, 0x82, 0x83, 0x87, 0x89, 0x8B, 0x8F, 0x92, 0x93, 0x97, 0x9B, 0x9C, 0x9E, 0x9F] ++
    [0xA3, 0xA7, 0xAB, 0xAF, 0xB2, 0xB3, 0xB7, 0xBB, 0xBF, 0xC2, 0xC3, 0xC7, 0xCB, 0xCF, 0xD2, 0xD3, 0xD4, 0xD7, 0xDA, 0xDB, 0xDC, 0xDF, 0xE2, 0xE3, 0xE7, 0xEB, 0xEF, 0xF2, 0xF3, 0xF4, 0xF7, 0xFA, 0xFB, 0xFC, 0xFF] : List Byte)

/-! ### Bus -/

/-- MemReadZP (R58), every outcome, with R61 for the failing access and R62 for side effects (log 4); low byte first is the spec's decision D27 (log 22). -/
def Obligations.ZeroPagePointerReadsStayInPageZero : Prop :=
  ∀ (z : Byte) (s : State),
    let lo : Addr := 0x00#8 ++ z
    let hi : Addr := 0x00#8 ++ (z + 1)
    s.busReadZP z =
      if s.readFails lo then .raised (s.failedRead lo)
      else if s.readFails hi then .raised ((s.afterRead lo).failedRead hi)
      else .ok ((s.afterRead lo).byteAt hi ++ s.byteAt lo) ((s.afterRead lo).afterRead hi)

/-- MemRead(a, 2) (R57), every outcome, with R61 and R62 (log 4); the full carry is the spec's decision D10 (log 12), low byte first its decision D27 (log 22). -/
def Obligations.SixteenBitReadsCarryIntoTheNextPage : Prop :=
  ∀ (a : Addr) (s : State),
    s.busRead16 a =
      if s.readFails a then .raised (s.failedRead a)
      else if s.readFails (a + 1) then .raised ((s.afterRead a).failedRead (a + 1))
      else .ok ((s.afterRead a).byteAt (a + 1) ++ s.byteAt a) ((s.afterRead a).afterRead (a + 1))

/-- MemWrite (R60), used by no instruction. The write-failing addresses are the platform's (log 4). -/
def Obligations.BusWriteStoresExactlyOneByte : Prop :=
  ∀ (a : Addr) (v : Byte) (s : State), s.mem.wf = true →
    (s.writeFails a = true →
      s.busWrite a v = .raised ((s.logAccess (.write a v)).raise (.busFailure a))) ∧
    (s.writeFails a = false →
      ∃ t, s.busWrite a v = .ok () t ∧ t.byteAt a = v ∧ (∀ b, b ≠ a → t.byteAt b = s.byteAt b) ∧
        t.mem.wf = true ∧ t = { s with mem := t.mem, accesses := s.accesses ++ [.write a v] })

/-! ### Addressing modes -/

/-- R114, R115, R117, R124; low byte first is the spec's decision D27 (log 22). -/
def Obligations.PlainAndIndexedXAddresses : Prop :=
  ∀ (s : State) (z : Byte) (w : Addr),
    s.resolveAddress (.zeroPage z) = .ok (0x00#8 ++ z) s ∧
    s.resolveAddress (.zeroPageX z) = .ok (0x00#8 ++ (z + s.x)) s ∧
    s.resolveAddress (.absolute w) = .ok w s ∧
    (∀ op1 op2 : Byte, assemble .absolute [op1, op2] = .absolute (op2 ++ op1)) ∧
    (s.readable [0x00#8 ++ (z + s.x), 0x00#8 ++ (z + s.x + 1)] = true →
      s.resolveAddress (.indirectX z) =
        .ok (s.wordRead (0x00#8 ++ (z + s.x)) (0x00#8 ++ (z + s.x + 1)))
          (s.afterReads [0x00#8 ++ (z + s.x), 0x00#8 ++ (z + s.x + 1)]))

/-- R116, R118, R119, R120, R125; the spec's decisions D6, D10, D11, D27 (log 11, log 12, log 22). -/
def Obligations.WrappingAndIndirectAddresses : Prop :=
  ∀ (s : State) (z : Byte) (w : Addr),
    s.resolveAddress (.zeroPageY z) = .ok (0x00#8 ++ (z + s.y)) s ∧
    s.resolveAddress (.absoluteX w) = .ok (w + (0x00#8 ++ s.x)) s ∧
    s.resolveAddress (.absoluteY w) = .ok (w + (0x00#8 ++ s.y)) s ∧
    (s.readable [w, w + 1] = true →
      s.resolveAddress (.indirect w) = .ok (s.wordRead w (w + 1)) (s.afterReads [w, w + 1])) ∧
    (s.readable [0x00#8 ++ z, 0x00#8 ++ (z + 1)] = true →
      s.resolveAddress (.indirectY z) =
        .ok (s.wordRead (0x00#8 ++ z) (0x00#8 ++ (z + 1)) + (0x00#8 ++ s.y))
          (s.afterReads [0x00#8 ++ z, 0x00#8 ++ (z + 1)]))

/-- The zero-page law (R127); IndirectY's pointer read is the spec's decision D11 (log 12). -/
def Obligations.ZeroPageNeverEscapes : Prop :=
  ∀ (s : State) (z : Byte),
    (∀ ea t, s.resolveAddress (.zeroPageX z) = .ok ea t → highByte ea = 0) ∧
    (∀ ea t, s.resolveAddress (.zeroPageY z) = .ok ea t → highByte ea = 0) ∧
    (∀ o ∈ [Operand.indirectX z, Operand.indirectY z], ∃ reads : List Addr,
      (∀ a ∈ reads, highByte a = 0) ∧
      ((∃ ea, s.resolveAddress o = .ok ea (s.afterReads reads)) ∨
        ∃ a, s.resolveAddress o = .raised ((s.afterReads reads).failedRead a) ∧ highByte a = 0))

/-- R111, R112, R113 and the vectors V30 to V30f; D19 (log 16). -/
def Obligations.ImpossibleRequestsFail : Prop :=
  ∀ (s : State) (d v : Byte),
    s.resolveByte .accumulator = .raised (s.raise (.invalidAddressing .accumulator .byte)) ∧
    s.resolveByte (.relative d) = .raised (s.raise (.invalidAddressing .relative .byte)) ∧
    s.resolveByte .implied = .raised (s.raise (.invalidAddressing .implied .byte)) ∧
    s.resolveLocation (.relative d) = .raised (s.raise (.invalidAddressing .relative .location)) ∧
    s.resolveAddress (.relative d) = .raised (s.raise (.invalidAddressing .relative .location)) ∧
    s.resolveAddress .implied = .raised (s.raise (.invalidAddressing .implied .address)) ∧
    s.resolveAddress .accumulator = .raised (s.raise (.invalidAddressing .accumulator .address)) ∧
    s.resolveAddress (.immediate v) = .raised (s.raise (.invalidAddressing .immediate .address)) ∧
    s.resolveLocation .implied = .ok .none s ∧
    s.resolveLocation (.immediate v) = .ok .none s ∧
    s.resolveLocation .accumulator = .ok .accumulator s ∧
    s.resolveByte (.immediate v) = .ok v s

/-! ### The step -/

/-- R101 to R105, R108: the per-instruction statements reach a run through this one; D27, side effects (log 22, log 4). -/
def Obligations.StepRunsDecodedInstruction : Prop :=
  ∀ (s : State) (i : Instr) (n : Nat), s.run = .running → s.atBoundary = false →
    decode s.params.optab (s.beginStep.bytesRead (addressesFrom n s.pc)) = .ok (i, []) →
    s.readable (addressesFrom n s.pc) = true →
    step s = exec i { s.beginStep.afterReads (addressesFrom n s.pc) with pc := s.pc + 1 }

/-- R100, R284; the place of the check is the spec's decision D5 (log 9). -/
def Obligations.BoundaryStepHalts : Prop :=
  ∀ s : State, s.run = .running → s.params.haltEnable = true → s.params.haltBoundary.toNat ≤ s.pc.toNat →
    step s = .next { s with run := .halted, accesses := [] }

/-- R100, R259; D5 (log 9). -/
def Obligations.HaltedOnlyAtTheBoundary : Prop :=
  ∀ s t : State, s.run = .running → step s = .next t →
    (t.run = .halted ↔ s.params.haltEnable = true ∧ s.params.haltBoundary.toNat ≤ s.pc.toNat)

/-- R9, R32, R100; the answer where there is no step is the model's choice (log 7). -/
def Obligations.RunningCoreAlwaysSteps : Prop :=
  ∀ s : State,
    (s.run = .running → ∃ t, step s = .next t) ∧
    (s.run = .halted → step s = .fault .halted) ∧
    (∀ k, s.run = .faulted k → step s = .fault (.ended k))

/-- R101: the fetch, and its failure. -/
def Obligations.FailedFetchChangesNoRegister : Prop :=
  ∀ s : State, s.run = .running → s.atBoundary = false →
    (s.readFails s.pc = true →
      ∃ t, step s = .next t ∧ t.run = .faulted (.busFailure s.pc) ∧ SameRegisters s t) ∧
    (s.readFails s.pc = false →
      ∃ t, s.beginStep.busRead s.pc = .ok (s.byteAt s.pc) t ∧ t.run = .running ∧ SameRegisters s t)

/-- R102, for the default and every replacement table. -/
def Obligations.UnknownOpcodeLeavesPcAtTheByte : Prop :=
  ∀ s : State, s.run = .running → s.atBoundary = false → s.readFails s.pc = false →
    (∀ r ∈ s.params.optab.rows, r.opcode ≠ s.byteAt s.pc) →
    ∃ t, step s = .next t ∧ t.run = .faulted (.decodeFailure (s.byteAt s.pc)) ∧ SameRegisters s t

/-- R104, R255, R257; PC at the fault is D14 (log 14); the order of the reads is D27 (log 22); side effects are log 4. -/
def Obligations.OperandReadFailureStopsPastTheOpcode : Prop :=
  ∀ (s : State) (r : Row) (k : Nat), s.run = .running → s.atBoundary = false →
    s.params.optab.lookup (s.byteAt s.pc) = some r → k < operandCount r.mode →
    s.readable (addressesFrom (k + 1) s.pc) = true →
    s.readFails (s.pc + 1 + BitVec.ofNat 16 k) = true →
    step s = .next { (s.beginStep.afterReads (addressesFrom (k + 1) s.pc)).failedRead
      (s.pc + 1 + BitVec.ofNat 16 k) with pc := s.pc + 1 }

/-- R200, R105, R252; D24, D3, D27 (log 14, log 15, log 22); side effects are log 4. -/
def Obligations.UnimplementedStepEndsTheRun : Prop :=
  ∀ (s : State) (r : Row), s.run = .running → s.atBoundary = false →
    s.params.optab.lookup (s.byteAt s.pc) = some r → r.operation.implemented = false →
    s.readable (addressesFrom r.length s.pc) = true →
    step s = .next { s.afterFetch r with
      pc := s.pc + 1, run := .faulted (.unimplementedOperation r.operation) }

/-- R60, R63, R64; D27 (log 22). -/
def Obligations.AccessesOfOneStep : Prop :=
  ∀ s t : State, s.run = .running → step s = .next t →
    ∃ reads : List Addr, t.accesses = reads.map .read ∧ reads.length ≤ 6 ∧
      (s.params.optab = .standard → reads.length ≤ 5) ∧
      (t.run = .halted → reads = []) ∧ (t.run ≠ .halted → reads.head? = some s.pc)

/-- R81, R59, R68; how a program is placed is the model's choice (log 24); platforms are log 4, D27 is log 22. -/
def Obligations.PlacedWordIsFetched : Prop :=
  ∀ (s : State) (nbits w : Nat), s.mem.wf = true →
    let t := s.withFetchWord nbits w
    [t.byteAt s.pc, t.byteAt (s.pc + 1), t.byteAt (s.pc + 2)] = tableWordBytes nbits w ∧
      t.mem.wf = true ∧ t = { s with mem := t.mem } ∧
      (s.params.platform.readEffects = [] → s.readable (addressesFrom 3 s.pc) = true →
        ∃ u, t.busReadN 3 s.pc = .ok (tableWordBytes nbits w) u ∧ u.mem = t.mem)

/-! ### The instructions -/

/-- R140, R143, R106, R110; D12, D13, D4 (log 13, log 10); addresses by D6, D11 (log 11, log 12), reads in the order of D27 (log 22), side effects log 4. -/
def Obligations.AdcAddsWithSpecFlags : Prop :=
  ∀ (s : State) (o : Operand) (i : Byte), inputByte o s = some i → s.readable (inputReads o s) = true →
    ∃ t, exec (.adc o) s = .next t ∧
      t.a.toNat = (s.a.toNat + i.toNat + (s.flag .carry).toNat) % 256 ∧
      (t.flag .carry = true ↔ t.a.toNat < i.toNat) ∧
      (t.flag .zero = true ↔ t.a = 0) ∧
      (t.flag .overflow = true ↔ s.a.getLsbD 7 ≠ t.a.getLsbD 7) ∧
      t.flag .negative = t.a.getLsbD 7 ∧
      (∀ f ∈ [Flag.breakLeft, .breakRight, .decimal, .interruptDisable], t.flag f = s.flag f) ∧
      t = { s.afterReads (inputReads o s) with
        a := t.a, p := t.p, pc := s.pc + BitVec.ofNat 16 (operandCount o.mode) }

/-- R145; the modes the default table does not pair with JMP by D19 (log 16); D10, D11, D6 (log 12, log 11), D27 (log 22), side effects log 4. -/
def Obligations.JmpSetsPcToTheResolvedAddress : Prop :=
  ∀ (s : State) (o : Operand) (ea : Addr), effectiveAddress o s = some ea →
    s.readable (pointerReads o s) = true →
    exec (.jmp o) s = .next { s.afterReads (pointerReads o s) with pc := ea }

/-- R149 to R157; which flag a mnemonic names is PRESUMED (G4, log 23); PC past operands is D4 (log 10). -/
def Obligations.FlagOperationsWriteTheirOneFlag : Prop :=
  ∀ (s : State) (o : Operand),
    (∀ c ∈ [
      (Instr.clc o, Flag.carry, false),
      (Instr.cld o, Flag.decimal, false),
      (Instr.cli o, Flag.interruptDisable, false),
      (Instr.clv o, Flag.overflow, false),
      (Instr.sec o, Flag.carry, true),
      (Instr.sed o, Flag.decimal, true),
      (Instr.sei o, Flag.interruptDisable, true)],
      ∃ t, exec c.1 s = .next t ∧ t.flag c.2.1 = c.2.2 ∧ (∀ f, f ≠ c.2.1 → t.flag f = s.flag f) ∧
        t = { s with p := t.p, pc := s.pc + BitVec.ofNat 16 (operandCount o.mode) })

/-- R159 to R164; G4, D12, D4 (log 23, log 13, log 10). -/
def Obligations.TransfersCopyAndDescribeTheByte : Prop :=
  ∀ (s : State) (o : Operand),
    let pc' := s.pc + BitVec.ofNat 16 (operandCount o.mode)
    let describes (v : Byte) (t : State) : Prop :=
      (t.flag .zero = true ↔ v = 0) ∧ t.flag .negative = v.getLsbD 7 ∧
        ∀ f, f ≠ .zero → f ≠ .negative → t.flag f = s.flag f
    (∃ t, exec (.tax o) s = .next t ∧ describes s.a t ∧ t = { s with x := s.a, p := t.p, pc := pc' }) ∧
    (∃ t, exec (.tay o) s = .next t ∧ describes s.a t ∧ t = { s with y := s.a, p := t.p, pc := pc' }) ∧
    (∃ t, exec (.txa o) s = .next t ∧ describes s.x t ∧ t = { s with a := s.x, p := t.p, pc := pc' }) ∧
    (∃ t, exec (.tya o) s = .next t ∧ describes s.y t ∧ t = { s with a := s.y, p := t.p, pc := pc' })

/-- R166 to R168; which register a mnemonic names is PRESUMED (G4, log 23); D12 (log 13), D4 (log 10). -/
def Obligations.IncrementsWrapWithoutCarry : Prop :=
  ∀ (s : State) (o : Operand),
    let pc' := s.pc + BitVec.ofNat 16 (operandCount o.mode)
    let describes (v : Byte) (t : State) : Prop :=
      (t.flag .zero = true ↔ v = 0) ∧ t.flag .negative = v.getLsbD 7 ∧
        ∀ f, f ≠ .zero → f ≠ .negative → t.flag f = s.flag f
    (∃ t, exec (.inx o) s = .next t ∧ t.x.toNat = (s.x.toNat + 1) % 256 ∧ describes t.x t ∧
      t = { s with x := t.x, p := t.p, pc := pc' }) ∧
    (∃ t, exec (.iny o) s = .next t ∧ t.y.toNat = (s.y.toNat + 1) % 256 ∧ describes t.y t ∧
      t = { s with y := t.y, p := t.p, pc := pc' })

/-- R170 and C5; the opcode number is PRESUMED (log 1); D4 (log 10), side effects log 4. -/
def Obligations.NopMovesOnlyPc : Prop :=
  (∀ (s : State) (o : Operand),
    exec (.nop o) s = .next { s with pc := s.pc + BitVec.ofNat 16 (operandCount o.mode) }) ∧
  (∀ s : State, s.run = .running → s.atBoundary = false → s.params.optab = .standard →
    s.byteAt s.pc = 0xEA → s.readFails s.pc = false →
    step s = .next { s.beginStep.afterRead s.pc with pc := s.pc + 1 })

/-- R200 to R224; D3, D24 (log 15, log 14). -/
def Obligations.UnimplementedDataOperationsEndTheRun : Prop :=
  ∀ (s : State) (o : Operand),
    (∀ c ∈ [
      (Instr.and o, Operation.and), (Instr.asl o, Operation.asl), (Instr.bit o, Operation.bit),
      (Instr.cmp o, Operation.cmp), (Instr.cpx o, Operation.cpx), (Instr.cpy o, Operation.cpy),
      (Instr.dec o, Operation.dec), (Instr.dex o, Operation.dex), (Instr.dey o, Operation.dey),
      (Instr.eor o, Operation.eor), (Instr.inc o, Operation.inc), (Instr.lda o, Operation.lda),
      (Instr.ldx o, Operation.ldx), (Instr.ldy o, Operation.ldy), (Instr.lsr o, Operation.lsr),
      (Instr.ora o, Operation.ora), (Instr.rol o, Operation.rol), (Instr.ror o, Operation.ror),
      (Instr.sbc o, Operation.sbc), (Instr.sta o, Operation.sta), (Instr.stx o, Operation.stx),
      (Instr.sty o, Operation.sty), (Instr.tsx o, Operation.tsx), (Instr.txs o, Operation.txs)],
      exec c.1 s = .next { s with run := .faulted (.unimplementedOperation c.2) })

/-- R200, R230 to R245; D3, D24, D16 (log 15, log 14). -/
def Obligations.UnimplementedControlOperationsEndTheRun : Prop :=
  ∀ (s : State) (o : Operand),
    (∀ c ∈ [
      (Instr.bcc o, Operation.bcc), (Instr.bcs o, Operation.bcs), (Instr.beq o, Operation.beq),
      (Instr.bmi o, Operation.bmi), (Instr.bne o, Operation.bne), (Instr.bpl o, Operation.bpl),
      (Instr.bvc o, Operation.bvc), (Instr.bvs o, Operation.bvs), (Instr.jsr o, Operation.jsr),
      (Instr.brk o, Operation.brk), (Instr.rti o, Operation.rti), (Instr.rts o, Operation.rts),
      (Instr.pha o, Operation.pha), (Instr.php o, Operation.php), (Instr.pla o, Operation.pla),
      (Instr.plp o, Operation.plp)],
      exec c.1 s = .next { s with run := .faulted (.unimplementedOperation c.2) })

/-- R106 a, R111, R145, R251; D19 (log 16). -/
def Obligations.ModesWithoutAnAnswerTrap : Prop :=
  ∀ (s : State) (d v : Byte),
    (∀ c ∈ [
      (Instr.adc .implied, Mode.implied, Request.byte), (.adc .accumulator, .accumulator, .byte),
      (.adc (.relative d), .relative, .byte), (.jmp .implied, .implied, .address),
      (.jmp .accumulator, .accumulator, .address), (.jmp (.immediate v), .immediate, .address),
      (.jmp (.relative d), .relative, .location)],
      exec c.1 s = .next { s with run := .faulted (.invalidAddressing c.2.1 c.2.2) })

/-- R254, R257, R140, R145; PC at the fault is D14 (log 14); the order of the reads is D27 (log 22); side effects are log 4. -/
def Obligations.ReadFailureTrapsBeforeAnyWrite : Prop :=
  ∀ (s : State) (o : Operand) (before after : List Addr) (a : Addr),
    s.readable before = true → s.readFails a = true →
    let t : State := { (s.afterReads before).failedRead a with
      pc := s.pc + BitVec.ofNat 16 (operandCount o.mode) }
    (inputReads o s = before ++ a :: after → exec (.adc o) s = .next t) ∧
    (pointerReads o s = before ++ a :: after → exec (.jmp o) s = .next t)

/-! ### Arithmetic and flags -/

/-- R26: positions, masks and independence. -/
def Obligations.StatusByteIsItsEightFlags : Prop :=
  (∀ p : Byte, p =
    BitVec.ofBool (getFlag .negative p) ++ BitVec.ofBool (getFlag .overflow p) ++
    BitVec.ofBool (getFlag .breakLeft p) ++ BitVec.ofBool (getFlag .breakRight p) ++
    BitVec.ofBool (getFlag .decimal p) ++ BitVec.ofBool (getFlag .interruptDisable p) ++
    BitVec.ofBool (getFlag .zero p) ++ BitVec.ofBool (getFlag .carry p)) ∧
  (∀ n v bl br d i z c : Bool,
    let p : Byte := BitVec.ofBool n ++ BitVec.ofBool v ++ BitVec.ofBool bl ++ BitVec.ofBool br ++
      BitVec.ofBool d ++ BitVec.ofBool i ++ BitVec.ofBool z ++ BitVec.ofBool c
    getFlag .negative p = n ∧ getFlag .overflow p = v ∧ getFlag .breakLeft p = bl ∧
      getFlag .breakRight p = br ∧ getFlag .decimal p = d ∧ getFlag .interruptDisable p = i ∧
      getFlag .zero p = z ∧ getFlag .carry p = c) ∧
  (∀ f, flagMask f = match f with
    | .negative => 0x80 | .overflow => 0x40 | .breakLeft => 0x20 | .breakRight => 0x10
    | .decimal => 0x08 | .interruptDisable => 0x04 | .zero => 0x02 | .carry => 0x01)

/-- R28, R29; D16 (log 15). -/
def Obligations.BreakPrimitivesWriteBothBreakBits : Prop :=
  ∀ s : State,
    (s.setBreakInterrupt.flag .breakLeft = true ∧ s.setBreakInterrupt.flag .breakRight = true ∧
      (∀ f, f ≠ .breakLeft → f ≠ .breakRight → s.setBreakInterrupt.flag f = s.flag f) ∧
      s.setBreakInterrupt = { s with p := s.setBreakInterrupt.p }) ∧
    (s.setBreakInstruction.flag .breakLeft = true ∧ s.setBreakInstruction.flag .breakRight = false ∧
      (∀ f, f ≠ .breakLeft → f ≠ .breakRight → s.setBreakInstruction.flag f = s.flag f) ∧
      s.setBreakInstruction = { s with p := s.setBreakInstruction.p })

/-- R141. -/
def Obligations.CarryIsWrongOnlyAtFFWithCarryIn : Prop :=
  ∀ (a i : Byte) (c : Bool),
    (adcCarry i (adcSum a i c) = decide (256 ≤ a.toNat + i.toNat + c.toNat) ↔ ¬(c = true ∧ a = 0xFF)) ∧
    (c = true → a = 0xFF → 256 ≤ a.toNat + i.toNat + c.toNat ∧ adcCarry i (adcSum a i c) = false)

/-- R142, against the exact signed sum. -/
def Obligations.OverflowIsASignChangeTest : Prop :=
  ∀ (a i : Byte) (c : Bool),
    let exact : Int := a.toInt + i.toInt + (c.toNat : Int)
    let r := adcSum a i c
    (adcOverflow a r ≠ decide (exact < -128 ∨ 127 < exact)) ↔ (a.msb ≠ i.msb ∧ a.msb ≠ r.msb)

/-- R143; D13 (log 13). -/
def Obligations.DecimalFlagDoesNotChangeAdc : Prop :=
  ∀ (s : State) (o : Operand) (d : Bool), ∃ t, exec (.adc o) s = .next t ∧
    exec (.adc o) (s.setFlag .decimal d) = .next (t.setFlag .decimal d)

/-! ### The whole machine -/

/-- R27, R263, R146; Decimal by D13 (log 13), InterruptDisable by D15 (log 25); both runs get the same open bytes (log 26). -/
def Obligations.OnlyCarryFlagIsRead : Prop :=
  ∀ (s : State) (q : Byte), getFlag .carry q = s.flag .carry →
    (∀ t, step s = .next t → ∃ p, step { s with p := q } = .next { t with p := p } ∧
      getFlag .carry p = t.flag .carry ∧
      ∀ f, getFlag f q = s.flag f → getFlag f p = t.flag f) ∧
    (∀ f, step s = .fault f → step { s with p := q } = .fault f)

/-- R24, R31, R36, R60, R62, R262, R263; D15 (log 25), D3 and D16 (log 15), the parameters in the state (log 5), side effects (log 4). -/
def Obligations.StepKeepsStackVectorsMemoryAndBreakBits : Prop :=
  ∀ s t : State, step s = .next t → Kept s t

/-- R250 to R254, R257 with its columns PC and bus reads; D14, D24 (log 14), D27 (log 22), D19 (log 16), D6, D10, D11 (log 11, log 12). -/
def Obligations.FaultedStepChangesOnlyPc : Prop :=
  ∀ (s t : State) (k : FaultKind), s.run = .running → step s = .next t → t.run = .faulted k →
    (t.a = s.a ∧ t.x = s.x ∧ t.y = s.y ∧ t.s = s.s ∧ t.p = s.p ∧ t.vec = s.vec) ∧
    match k with
    | .decodeFailure b => b = s.byteAt s.pc ∧ s.params.optab.lookup b = none ∧ t.pc = s.pc ∧
        t.accesses = [.read s.pc]
    | .unimplementedOperation op => ∃ r, s.params.optab.lookup (s.byteAt s.pc) = some r ∧
        r.operation = op ∧ op.implemented = false ∧ t.pc = s.pc + 1 ∧
        t.accesses = (addressesFrom r.length s.pc).map .read
    | .invalidAddressing m q => ∃ r, s.params.optab.lookup (s.byteAt s.pc) = some r ∧
        r.mode = m ∧ unanswered r.operation m q ∧ t.pc = s.pc + 1 ∧
        t.accesses = (addressesFrom r.length s.pc).map .read
    | .busFailure a => s.readFails a = true ∧
        ((a = s.pc ∧ t.pc = s.pc ∧ t.accesses = [.read s.pc]) ∨
        ∃ r, s.params.optab.lookup (s.byteAt s.pc) = some r ∧
          ((∃ n, n < operandCount r.mode ∧ a = s.pc + 1 + BitVec.ofNat 16 n ∧ t.pc = s.pc + 1 ∧
              t.accesses = (addressesFrom (n + 2) s.pc).map .read) ∨
           (∃ before after, operationReads r.operation (s.operandAt r) (s.afterFetch r) = before ++ a :: after ∧
              t.pc = s.pc + BitVec.ofNat 16 r.length ∧
              t.accesses = (addressesFrom r.length s.pc ++ before ++ [a]).map .read)))

/-- R146, R110, R25; D4 (log 10); JMP's address by D10, D11 (log 12), D6 (log 11), D27 (log 22). -/
def Obligations.PcMovesInTwoWays : Prop :=
  ∀ s t : State, step s = .next t → t.run = .running →
    ∃ r, s.params.optab.lookup (s.byteAt s.pc) = some r ∧ r.operation.implemented = true ∧
      ((r.operation ≠ .jmp ∧ t.pc = s.pc + BitVec.ofNat 16 r.length) ∨
       (r.operation = .jmp ∧
        effectiveAddress (s.operandAt r) (s.afterFetch r) = some t.pc))

/-- R107, R113, R3; table PRESUMED (log 1); a sum past 0xFFFF wraps by D6 (log 11). -/
def Obligations.ImplementedInstructionsNeverFaultOnFlatMemory : Prop :=
  ∀ (s : State) (r : Row), s.run = .running → s.atBoundary = false → s.params.optab = .standard →
    s.params.platform.readFails = [] → s.params.optab.lookup (s.byteAt s.pc) = some r →
    r.operation.implemented = true →
    ∃ t, step s = .next t ∧ t.run = .running

/-- R24, R60, R63, R113. -/
def Obligations.EveryStepKeepsTheInvariant : Prop :=
  ∀ s t : State, s.Inv → step s = .next t → t.Inv

/-- R35, with the model's reset values (log 2, log 3, log 6). -/
def Obligations.ResetMeetsTheInvariant : Prop :=
  State.reset.Inv

/-! ### Construction -/

/-- R280, R35, R31; D9 (log 19); side effects are log 4. -/
def Obligations.ConstructionLatchesTheVectors : Prop :=
  ∀ (u : Unspecified) (r : ResetValues) (params : Params) (mem : Memory) (taken : Nat),
    (∀ a ∈ [(0xFFFA : Addr), 0xFFFB, 0xFFFC, 0xFFFD, 0xFFFE, 0xFFFF], params.platform.failsRead a = false) →
    let s := unconstructed u params mem taken
    let rst := (s.afterReads [0xFFFA, 0xFFFB]).wordRead 0xFFFC 0xFFFD
    let t := construct u r params mem taken
    t = { s.afterReads [0xFFFA, 0xFFFB, 0xFFFC, 0xFFFD, 0xFFFE, 0xFFFF] with
        a := r.a, x := r.x, y := r.y, s := 0xFF, p := r.p, pc := rst, run := .running
        vec := {
          nmi := s.wordRead 0xFFFA 0xFFFB, reset := rst
          irq := (s.afterReads [0xFFFA, 0xFFFB, 0xFFFC, 0xFFFD]).wordRead 0xFFFE 0xFFFF } } ∧
      t.params = params ∧
      t.accesses = [.read 0xFFFA, .read 0xFFFB, .read 0xFFFC, .read 0xFFFD, .read 0xFFFE, .read 0xFFFF] ∧
      (params.platform.readEffects = [] → t.mem = mem ∧ t.vec = {
        nmi := mem.read 0xFFFB ++ mem.read 0xFFFA, reset := mem.read 0xFFFD ++ mem.read 0xFFFC
        irq := mem.read 0xFFFF ++ mem.read 0xFFFE })

/-- R281; D9 (log 19); side effects are log 4. -/
def Obligations.FailedConstructionEndsTheRun : Prop :=
  ∀ (u : Unspecified) (r : ResetValues) (params : Params) (mem : Memory) (taken n : Nat), n < 6 →
    (∀ a ∈ addressesFrom n 0xFFFA, params.platform.failsRead a = false) →
    params.platform.failsRead (0xFFFA + BitVec.ofNat 16 n) = true →
    let s := unconstructed u params mem taken
    let t := construct u r params mem taken
    t.run = .faulted (.busFailure (0xFFFA + BitVec.ofNat 16 n)) ∧
      t.accesses = (addressesFrom (n + 1) 0xFFFA).map .read ∧
      (2 ≤ n → t.vec.nmi = s.wordRead 0xFFFA 0xFFFB) ∧
      (4 ≤ n → t.vec.reset = (s.afterReads [0xFFFA, 0xFFFB]).wordRead 0xFFFC 0xFFFD) ∧
      t.mem = (s.afterReads (addressesFrom n 0xFFFA)).mem ∧ t.params = params

/-- R35, R280; the zeros and the empty memory are the model's choice (log 2, log 3), and so are its own fields (log 6, log 26). -/
def Obligations.ResetIsConstructionOverEmptyMemory : Prop :=
  ∀ u : Unspecified,
    construct u { a := 0x00, x := 0x00, y := 0x00, p := 0x00 } Params.standard [] 0 = State.reset

/-! ### The platform behind the bus -/

/-- R3, R56, R62, R65, for every platform; the form of side effects is the model's choice (log 4, log 26). -/
def Obligations.AnsweredReadThenThePlatformActs : Prop :=
  ∀ (a : Addr) (s : State), s.mem.wf = true → s.readFails a = false →
    ∃ t, s.busRead a = .ok (s.byteAt a) t ∧
      t = { s with mem := t.mem, freeBytes := t.freeBytes, accesses := s.accesses ++ [.read a] } ∧
      t.mem.wf = true ∧
      (∀ b, (∀ c ∈ s.params.platform.changesOnRead a, c.addr ≠ b) → t.byteAt b = s.byteAt b) ∧
      (∀ (before after : List Change) (c : Change),
        s.params.platform.changesOnRead a = before ++ c :: after → (∀ d ∈ after, d.addr ≠ c.addr) →
        t.byteAt c.addr = match c.byte with
          | some v => v
          | none => Config.platformByte (s.freeBytes + before.countP (·.byte.isNone)))

/-- R62, its last sentence; D17 (log 4). -/
def Obligations.FlatPlatformReadsHaveNoSideEffect : Prop :=
  Params.standard.platform.readEffects = [] ∧
  ∀ (a : Addr) (s : State), s.params.platform.readEffects = [] → s.readFails a = false →
    s.busRead a = .ok (s.byteAt a) { s with accesses := s.accesses ++ [.read a] } ∧
    (s.afterRead a).busRead a =
      .ok (s.byteAt a) { s with accesses := s.accesses ++ [.read a] ++ [.read a] }

/-- R12, R60, R68; what the platform may do is log 4. -/
def Obligations.PlatformActsOnMemoryAlone : Prop :=
  ∀ (s : State) (cs : List Change),
    (∃ mem n, s.platformChanges cs = { s with mem := mem, freeBytes := n }) ∧
    (∀ b, (∀ c ∈ cs, c.addr ≠ b) → (s.platformChanges cs).byteAt b = s.byteAt b) ∧
    (s.Inv → (s.platformChanges cs).Inv)
end

