-- ==== Sys2Proof/Laws/Memory.lean ====
section
/-! SUPPORT. Memory as a list of cells: a read after a write, and the canonical form kept by every operation. -/

namespace Sys2Proof.Machine

@[simp] theorem Memory.read_empty (a : Nat) : Memory.read [] a = Config.unlistedByte := rfl

/-- A canonical list that starts above an address does not list it. -/
theorem Memory.read_below (m : Memory) (lo a : Nat) (h : m.wfFrom lo = true) (ha : a < lo) :
    m.read a = Config.unlistedByte := by
  induction m generalizing lo with
  | nil => rfl
  | cons c rest ih =>
    obtain ⟨k, v⟩ := c
    simp only [Memory.wfFrom, Bool.and_eq_true, decide_eq_true_eq] at h
    have hk : k ≠ a := by omega
    simp only [Memory.read, if_neg hk]
    exact ih (k + 1) h.2 (by omega)

/-- The canonical form from a higher address is one from a lower address. -/
theorem Memory.wfFrom_mono (m : Memory) (lo lo' : Nat) (h : m.wfFrom lo = true) (hl : lo' ≤ lo) :
    m.wfFrom lo' = true := by
  cases m with
  | nil => rfl
  | cons c rest =>
    obtain ⟨k, v⟩ := c
    simp only [Memory.wfFrom, Bool.and_eq_true, decide_eq_true_eq] at h ⊢
    exact ⟨⟨⟨by omega, h.1.1.2⟩, h.1.2⟩, h.2⟩

/-- A write keeps the canonical form. -/
theorem Memory.write_wfFrom (m : Memory) (lo a : Nat) (v : Byte) (h : m.wfFrom lo = true)
    (hl : lo ≤ a) (ha : a < 65536) : (m.write a v).wfFrom lo = true := by
  induction m generalizing lo with
  | nil =>
    simp only [Memory.write]
    split
    · rfl
    · rename_i hv
      simp [Memory.wfFrom, hl, ha, hv]
  | cons c rest ih =>
    obtain ⟨k, w⟩ := c
    have h0 := h
    simp only [Memory.wfFrom, Bool.and_eq_true, decide_eq_true_eq] at h
    simp only [Memory.write]
    split
    · rename_i hak
      split
      · exact h0
      · rename_i hv
        simp only [Memory.wfFrom, Bool.and_eq_true, decide_eq_true_eq]
        exact ⟨⟨⟨hl, ha⟩, hv⟩, ⟨⟨by omega, h.1.1.2⟩, h.1.2⟩, h.2⟩
    · split
      · rename_i _ hak
        subst hak
        split
        · exact Memory.wfFrom_mono rest (a + 1) lo h.2 (by omega)
        · rename_i hv
          simp only [Memory.wfFrom, Bool.and_eq_true, decide_eq_true_eq]
          exact ⟨⟨⟨hl, ha⟩, hv⟩, h.2⟩
      · simp only [Memory.wfFrom, Bool.and_eq_true, decide_eq_true_eq]
        exact ⟨h.1, ih (k + 1) h.2 (by omega)⟩

/-- A write keeps the canonical form. -/
theorem Memory.write_wf (m : Memory) (a : Addr) (v : Byte) (h : m.wf = true) :
    (m.write a.toNat v).wf = true :=
  Memory.write_wfFrom m 0 a.toNat v h (Nat.zero_le _) a.isLt

/-- Loading an image keeps the canonical form. -/
theorem Memory.load_wf (m : Memory) (a : Addr) (bytes : List Byte) (h : m.wf = true) :
    (m.load a bytes).wf = true := by
  induction bytes generalizing m a with
  | nil => exact h
  | cons b rest ih => exact ih _ _ (Memory.write_wf m a b h)

/-- A read where the byte was written gives it. -/
theorem Memory.read_write_same (m : Memory) (lo a : Nat) (v : Byte) (h : m.wfFrom lo = true) :
    (m.write a v).read a = v := by
  induction m generalizing lo with
  | nil =>
    simp only [Memory.write]
    split
    · rename_i hv; exact hv.symm
    · simp [Memory.read]
  | cons c rest ih =>
    obtain ⟨k, w⟩ := c
    have h0 := h
    simp only [Memory.wfFrom, Bool.and_eq_true, decide_eq_true_eq] at h
    simp only [Memory.write]
    split
    · rename_i hak
      split
      · rename_i hv
        have hk : k ≠ a := by omega
        simp only [Memory.read, if_neg hk, hv]
        exact Memory.read_below rest (k + 1) a h.2 (by omega)
      · simp [Memory.read]
    · split
      · rename_i hnk hak
        split
        · rename_i hv
          rw [hv]
          exact Memory.read_below rest (k + 1) a h.2 (by omega)
        · simp [Memory.read]
      · rename_i hnk hak
        have hk : k ≠ a := by omega
        simp only [Memory.read, if_neg hk]
        exact ih (k + 1) h.2

/-- A write leaves every other address alone. -/
theorem Memory.read_write_other (m : Memory) (a b : Nat) (v : Byte) (hab : b ≠ a) :
    (m.write a v).read b = m.read b := by
  induction m with
  | nil =>
    simp only [Memory.write]
    split
    · rfl
    · simp [Memory.read, hab.symm]
  | cons c rest ih =>
    obtain ⟨k, w⟩ := c
    simp only [Memory.write]
    split
    · split
      · rfl
      · simp [Memory.read, hab.symm]
    · split
      · rename_i _ hak
        subst hak
        split <;> simp [Memory.read, hab.symm]
      · simp only [Memory.read]
        split
        · rfl
        · exact ih

end Sys2Proof.Machine
end

