-- ==== Sys2Proof/Laws/State.lean ====
section
/-! SUPPORT. One lemma per field per update of the state, so that no proof unfolds a record update. -/

namespace Sys2Proof.Machine

/-! ### `State.setA` -/

@[simp] theorem State.setA_a (v : Byte) (s : State) : (s.setA v).a = v := rfl
@[simp] theorem State.setA_x (v : Byte) (s : State) : (s.setA v).x = s.x := rfl
@[simp] theorem State.setA_y (v : Byte) (s : State) : (s.setA v).y = s.y := rfl
@[simp] theorem State.setA_s (v : Byte) (s : State) : (s.setA v).s = s.s := rfl
@[simp] theorem State.setA_p (v : Byte) (s : State) : (s.setA v).p = s.p := rfl
@[simp] theorem State.setA_pc (v : Byte) (s : State) : (s.setA v).pc = s.pc := rfl
@[simp] theorem State.setA_vec (v : Byte) (s : State) : (s.setA v).vec = s.vec := rfl
@[simp] theorem State.setA_run (v : Byte) (s : State) : (s.setA v).run = s.run := rfl
@[simp] theorem State.setA_mem (v : Byte) (s : State) : (s.setA v).mem = s.mem := rfl
@[simp] theorem State.setA_params (v : Byte) (s : State) : (s.setA v).params = s.params := rfl
@[simp] theorem State.setA_freeBytes (v : Byte) (s : State) : (s.setA v).freeBytes = s.freeBytes := rfl
@[simp] theorem State.setA_accesses (v : Byte) (s : State) : (s.setA v).accesses = s.accesses := rfl

/-! ### `State.setX` -/

@[simp] theorem State.setX_a (v : Byte) (s : State) : (s.setX v).a = s.a := rfl
@[simp] theorem State.setX_x (v : Byte) (s : State) : (s.setX v).x = v := rfl
@[simp] theorem State.setX_y (v : Byte) (s : State) : (s.setX v).y = s.y := rfl
@[simp] theorem State.setX_s (v : Byte) (s : State) : (s.setX v).s = s.s := rfl
@[simp] theorem State.setX_p (v : Byte) (s : State) : (s.setX v).p = s.p := rfl
@[simp] theorem State.setX_pc (v : Byte) (s : State) : (s.setX v).pc = s.pc := rfl
@[simp] theorem State.setX_vec (v : Byte) (s : State) : (s.setX v).vec = s.vec := rfl
@[simp] theorem State.setX_run (v : Byte) (s : State) : (s.setX v).run = s.run := rfl
@[simp] theorem State.setX_mem (v : Byte) (s : State) : (s.setX v).mem = s.mem := rfl
@[simp] theorem State.setX_params (v : Byte) (s : State) : (s.setX v).params = s.params := rfl
@[simp] theorem State.setX_freeBytes (v : Byte) (s : State) : (s.setX v).freeBytes = s.freeBytes := rfl
@[simp] theorem State.setX_accesses (v : Byte) (s : State) : (s.setX v).accesses = s.accesses := rfl

/-! ### `State.setY` -/

@[simp] theorem State.setY_a (v : Byte) (s : State) : (s.setY v).a = s.a := rfl
@[simp] theorem State.setY_x (v : Byte) (s : State) : (s.setY v).x = s.x := rfl
@[simp] theorem State.setY_y (v : Byte) (s : State) : (s.setY v).y = v := rfl
@[simp] theorem State.setY_s (v : Byte) (s : State) : (s.setY v).s = s.s := rfl
@[simp] theorem State.setY_p (v : Byte) (s : State) : (s.setY v).p = s.p := rfl
@[simp] theorem State.setY_pc (v : Byte) (s : State) : (s.setY v).pc = s.pc := rfl
@[simp] theorem State.setY_vec (v : Byte) (s : State) : (s.setY v).vec = s.vec := rfl
@[simp] theorem State.setY_run (v : Byte) (s : State) : (s.setY v).run = s.run := rfl
@[simp] theorem State.setY_mem (v : Byte) (s : State) : (s.setY v).mem = s.mem := rfl
@[simp] theorem State.setY_params (v : Byte) (s : State) : (s.setY v).params = s.params := rfl
@[simp] theorem State.setY_freeBytes (v : Byte) (s : State) : (s.setY v).freeBytes = s.freeBytes := rfl
@[simp] theorem State.setY_accesses (v : Byte) (s : State) : (s.setY v).accesses = s.accesses := rfl

/-! ### `State.setP` -/

@[simp] theorem State.setP_a (v : Byte) (s : State) : (s.setP v).a = s.a := rfl
@[simp] theorem State.setP_x (v : Byte) (s : State) : (s.setP v).x = s.x := rfl
@[simp] theorem State.setP_y (v : Byte) (s : State) : (s.setP v).y = s.y := rfl
@[simp] theorem State.setP_s (v : Byte) (s : State) : (s.setP v).s = s.s := rfl
@[simp] theorem State.setP_p (v : Byte) (s : State) : (s.setP v).p = v := rfl
@[simp] theorem State.setP_pc (v : Byte) (s : State) : (s.setP v).pc = s.pc := rfl
@[simp] theorem State.setP_vec (v : Byte) (s : State) : (s.setP v).vec = s.vec := rfl
@[simp] theorem State.setP_run (v : Byte) (s : State) : (s.setP v).run = s.run := rfl
@[simp] theorem State.setP_mem (v : Byte) (s : State) : (s.setP v).mem = s.mem := rfl
@[simp] theorem State.setP_params (v : Byte) (s : State) : (s.setP v).params = s.params := rfl
@[simp] theorem State.setP_freeBytes (v : Byte) (s : State) : (s.setP v).freeBytes = s.freeBytes := rfl
@[simp] theorem State.setP_accesses (v : Byte) (s : State) : (s.setP v).accesses = s.accesses := rfl

/-! ### `State.setPc` -/

@[simp] theorem State.setPc_a (t : Addr) (s : State) : (s.setPc t).a = s.a := rfl
@[simp] theorem State.setPc_x (t : Addr) (s : State) : (s.setPc t).x = s.x := rfl
@[simp] theorem State.setPc_y (t : Addr) (s : State) : (s.setPc t).y = s.y := rfl
@[simp] theorem State.setPc_s (t : Addr) (s : State) : (s.setPc t).s = s.s := rfl
@[simp] theorem State.setPc_p (t : Addr) (s : State) : (s.setPc t).p = s.p := rfl
@[simp] theorem State.setPc_pc (t : Addr) (s : State) : (s.setPc t).pc = t := rfl
@[simp] theorem State.setPc_vec (t : Addr) (s : State) : (s.setPc t).vec = s.vec := rfl
@[simp] theorem State.setPc_run (t : Addr) (s : State) : (s.setPc t).run = s.run := rfl
@[simp] theorem State.setPc_mem (t : Addr) (s : State) : (s.setPc t).mem = s.mem := rfl
@[simp] theorem State.setPc_params (t : Addr) (s : State) : (s.setPc t).params = s.params := rfl
@[simp] theorem State.setPc_freeBytes (t : Addr) (s : State) : (s.setPc t).freeBytes = s.freeBytes := rfl
@[simp] theorem State.setPc_accesses (t : Addr) (s : State) : (s.setPc t).accesses = s.accesses := rfl

/-! ### `State.advance` -/

@[simp] theorem State.advance_a (n : Nat) (s : State) : (s.advance n).a = s.a := rfl
@[simp] theorem State.advance_x (n : Nat) (s : State) : (s.advance n).x = s.x := rfl
@[simp] theorem State.advance_y (n : Nat) (s : State) : (s.advance n).y = s.y := rfl
@[simp] theorem State.advance_s (n : Nat) (s : State) : (s.advance n).s = s.s := rfl
@[simp] theorem State.advance_p (n : Nat) (s : State) : (s.advance n).p = s.p := rfl
@[simp] theorem State.advance_pc (n : Nat) (s : State) : (s.advance n).pc = s.pc + BitVec.ofNat 16 n := rfl
@[simp] theorem State.advance_vec (n : Nat) (s : State) : (s.advance n).vec = s.vec := rfl
@[simp] theorem State.advance_run (n : Nat) (s : State) : (s.advance n).run = s.run := rfl
@[simp] theorem State.advance_mem (n : Nat) (s : State) : (s.advance n).mem = s.mem := rfl
@[simp] theorem State.advance_params (n : Nat) (s : State) : (s.advance n).params = s.params := rfl
@[simp] theorem State.advance_freeBytes (n : Nat) (s : State) : (s.advance n).freeBytes = s.freeBytes := rfl
@[simp] theorem State.advance_accesses (n : Nat) (s : State) : (s.advance n).accesses = s.accesses := rfl

/-! ### `State.setFlag` -/

@[simp] theorem State.setFlag_a (f : Flag) (v : Bool) (s : State) : (s.setFlag f v).a = s.a := rfl
@[simp] theorem State.setFlag_x (f : Flag) (v : Bool) (s : State) : (s.setFlag f v).x = s.x := rfl
@[simp] theorem State.setFlag_y (f : Flag) (v : Bool) (s : State) : (s.setFlag f v).y = s.y := rfl
@[simp] theorem State.setFlag_s (f : Flag) (v : Bool) (s : State) : (s.setFlag f v).s = s.s := rfl
@[simp] theorem State.setFlag_p (f : Flag) (v : Bool) (s : State) : (s.setFlag f v).p = putFlag f v s.p := rfl
@[simp] theorem State.setFlag_pc (f : Flag) (v : Bool) (s : State) : (s.setFlag f v).pc = s.pc := rfl
@[simp] theorem State.setFlag_vec (f : Flag) (v : Bool) (s : State) : (s.setFlag f v).vec = s.vec := rfl
@[simp] theorem State.setFlag_run (f : Flag) (v : Bool) (s : State) : (s.setFlag f v).run = s.run := rfl
@[simp] theorem State.setFlag_mem (f : Flag) (v : Bool) (s : State) : (s.setFlag f v).mem = s.mem := rfl
@[simp] theorem State.setFlag_params (f : Flag) (v : Bool) (s : State) : (s.setFlag f v).params = s.params := rfl
@[simp] theorem State.setFlag_freeBytes (f : Flag) (v : Bool) (s : State) : (s.setFlag f v).freeBytes = s.freeBytes := rfl
@[simp] theorem State.setFlag_accesses (f : Flag) (v : Bool) (s : State) : (s.setFlag f v).accesses = s.accesses := rfl

/-! ### `State.setZeroNegative` -/

@[simp] theorem State.setZeroNegative_a (r : Byte) (s : State) : (s.setZeroNegative r).a = s.a := rfl
@[simp] theorem State.setZeroNegative_x (r : Byte) (s : State) : (s.setZeroNegative r).x = s.x := rfl
@[simp] theorem State.setZeroNegative_y (r : Byte) (s : State) : (s.setZeroNegative r).y = s.y := rfl
@[simp] theorem State.setZeroNegative_s (r : Byte) (s : State) : (s.setZeroNegative r).s = s.s := rfl
@[simp] theorem State.setZeroNegative_p (r : Byte) (s : State) : (s.setZeroNegative r).p = putZeroNegative r s.p := rfl
@[simp] theorem State.setZeroNegative_pc (r : Byte) (s : State) : (s.setZeroNegative r).pc = s.pc := rfl
@[simp] theorem State.setZeroNegative_vec (r : Byte) (s : State) : (s.setZeroNegative r).vec = s.vec := rfl
@[simp] theorem State.setZeroNegative_run (r : Byte) (s : State) : (s.setZeroNegative r).run = s.run := rfl
@[simp] theorem State.setZeroNegative_mem (r : Byte) (s : State) : (s.setZeroNegative r).mem = s.mem := rfl
@[simp] theorem State.setZeroNegative_params (r : Byte) (s : State) : (s.setZeroNegative r).params = s.params := rfl
@[simp] theorem State.setZeroNegative_freeBytes (r : Byte) (s : State) : (s.setZeroNegative r).freeBytes = s.freeBytes := rfl
@[simp] theorem State.setZeroNegative_accesses (r : Byte) (s : State) : (s.setZeroNegative r).accesses = s.accesses := rfl

/-! ### `State.raise` -/

@[simp] theorem State.raise_a (k : FaultKind) (s : State) : (s.raise k).a = s.a := rfl
@[simp] theorem State.raise_x (k : FaultKind) (s : State) : (s.raise k).x = s.x := rfl
@[simp] theorem State.raise_y (k : FaultKind) (s : State) : (s.raise k).y = s.y := rfl
@[simp] theorem State.raise_s (k : FaultKind) (s : State) : (s.raise k).s = s.s := rfl
@[simp] theorem State.raise_p (k : FaultKind) (s : State) : (s.raise k).p = s.p := rfl
@[simp] theorem State.raise_pc (k : FaultKind) (s : State) : (s.raise k).pc = s.pc := rfl
@[simp] theorem State.raise_vec (k : FaultKind) (s : State) : (s.raise k).vec = s.vec := rfl
@[simp] theorem State.raise_run (k : FaultKind) (s : State) : (s.raise k).run = .faulted k := rfl
@[simp] theorem State.raise_mem (k : FaultKind) (s : State) : (s.raise k).mem = s.mem := rfl
@[simp] theorem State.raise_params (k : FaultKind) (s : State) : (s.raise k).params = s.params := rfl
@[simp] theorem State.raise_freeBytes (k : FaultKind) (s : State) : (s.raise k).freeBytes = s.freeBytes := rfl
@[simp] theorem State.raise_accesses (k : FaultKind) (s : State) : (s.raise k).accesses = s.accesses := rfl

/-! ### `State.logAccess` -/

@[simp] theorem State.logAccess_a (b : Access) (s : State) : (s.logAccess b).a = s.a := rfl
@[simp] theorem State.logAccess_x (b : Access) (s : State) : (s.logAccess b).x = s.x := rfl
@[simp] theorem State.logAccess_y (b : Access) (s : State) : (s.logAccess b).y = s.y := rfl
@[simp] theorem State.logAccess_s (b : Access) (s : State) : (s.logAccess b).s = s.s := rfl
@[simp] theorem State.logAccess_p (b : Access) (s : State) : (s.logAccess b).p = s.p := rfl
@[simp] theorem State.logAccess_pc (b : Access) (s : State) : (s.logAccess b).pc = s.pc := rfl
@[simp] theorem State.logAccess_vec (b : Access) (s : State) : (s.logAccess b).vec = s.vec := rfl
@[simp] theorem State.logAccess_run (b : Access) (s : State) : (s.logAccess b).run = s.run := rfl
@[simp] theorem State.logAccess_mem (b : Access) (s : State) : (s.logAccess b).mem = s.mem := rfl
@[simp] theorem State.logAccess_params (b : Access) (s : State) : (s.logAccess b).params = s.params := rfl
@[simp] theorem State.logAccess_freeBytes (b : Access) (s : State) : (s.logAccess b).freeBytes = s.freeBytes := rfl
@[simp] theorem State.logAccess_accesses (b : Access) (s : State) : (s.logAccess b).accesses = s.accesses ++ [b] := rfl

/-! ### `State.platformChanges` -/

@[simp] theorem State.platformChanges_a (cs : List Change) (s : State) : (s.platformChanges cs).a = s.a := rfl
@[simp] theorem State.platformChanges_x (cs : List Change) (s : State) : (s.platformChanges cs).x = s.x := rfl
@[simp] theorem State.platformChanges_y (cs : List Change) (s : State) : (s.platformChanges cs).y = s.y := rfl
@[simp] theorem State.platformChanges_s (cs : List Change) (s : State) : (s.platformChanges cs).s = s.s := rfl
@[simp] theorem State.platformChanges_p (cs : List Change) (s : State) : (s.platformChanges cs).p = s.p := rfl
@[simp] theorem State.platformChanges_pc (cs : List Change) (s : State) : (s.platformChanges cs).pc = s.pc := rfl
@[simp] theorem State.platformChanges_vec (cs : List Change) (s : State) : (s.platformChanges cs).vec = s.vec := rfl
@[simp] theorem State.platformChanges_run (cs : List Change) (s : State) : (s.platformChanges cs).run = s.run := rfl
@[simp] theorem State.platformChanges_mem (cs : List Change) (s : State) : (s.platformChanges cs).mem = (s.mem.applyChanges cs s.freeBytes).1 := rfl
@[simp] theorem State.platformChanges_params (cs : List Change) (s : State) : (s.platformChanges cs).params = s.params := rfl
@[simp] theorem State.platformChanges_freeBytes (cs : List Change) (s : State) : (s.platformChanges cs).freeBytes = (s.mem.applyChanges cs s.freeBytes).2 := rfl
@[simp] theorem State.platformChanges_accesses (cs : List Change) (s : State) : (s.platformChanges cs).accesses = s.accesses := rfl

/-! ### `State.afterRead` -/

@[simp] theorem State.afterRead_a (b : Addr) (s : State) : (s.afterRead b).a = s.a := rfl
@[simp] theorem State.afterRead_x (b : Addr) (s : State) : (s.afterRead b).x = s.x := rfl
@[simp] theorem State.afterRead_y (b : Addr) (s : State) : (s.afterRead b).y = s.y := rfl
@[simp] theorem State.afterRead_s (b : Addr) (s : State) : (s.afterRead b).s = s.s := rfl
@[simp] theorem State.afterRead_p (b : Addr) (s : State) : (s.afterRead b).p = s.p := rfl
@[simp] theorem State.afterRead_pc (b : Addr) (s : State) : (s.afterRead b).pc = s.pc := rfl
@[simp] theorem State.afterRead_vec (b : Addr) (s : State) : (s.afterRead b).vec = s.vec := rfl
@[simp] theorem State.afterRead_run (b : Addr) (s : State) : (s.afterRead b).run = s.run := rfl
@[simp] theorem State.afterRead_mem (b : Addr) (s : State) : (s.afterRead b).mem = (s.mem.applyChanges (s.params.platform.changesOnRead b) s.freeBytes).1 := rfl
@[simp] theorem State.afterRead_params (b : Addr) (s : State) : (s.afterRead b).params = s.params := rfl
@[simp] theorem State.afterRead_freeBytes (b : Addr) (s : State) : (s.afterRead b).freeBytes = (s.mem.applyChanges (s.params.platform.changesOnRead b) s.freeBytes).2 := rfl
@[simp] theorem State.afterRead_accesses (b : Addr) (s : State) : (s.afterRead b).accesses = s.accesses ++ [.read b] := rfl

/-! ### `State.failedRead` -/

@[simp] theorem State.failedRead_a (b : Addr) (s : State) : (s.failedRead b).a = s.a := rfl
@[simp] theorem State.failedRead_x (b : Addr) (s : State) : (s.failedRead b).x = s.x := rfl
@[simp] theorem State.failedRead_y (b : Addr) (s : State) : (s.failedRead b).y = s.y := rfl
@[simp] theorem State.failedRead_s (b : Addr) (s : State) : (s.failedRead b).s = s.s := rfl
@[simp] theorem State.failedRead_p (b : Addr) (s : State) : (s.failedRead b).p = s.p := rfl
@[simp] theorem State.failedRead_pc (b : Addr) (s : State) : (s.failedRead b).pc = s.pc := rfl
@[simp] theorem State.failedRead_vec (b : Addr) (s : State) : (s.failedRead b).vec = s.vec := rfl
@[simp] theorem State.failedRead_run (b : Addr) (s : State) : (s.failedRead b).run = .faulted (.busFailure b) := rfl
@[simp] theorem State.failedRead_mem (b : Addr) (s : State) : (s.failedRead b).mem = s.mem := rfl
@[simp] theorem State.failedRead_params (b : Addr) (s : State) : (s.failedRead b).params = s.params := rfl
@[simp] theorem State.failedRead_freeBytes (b : Addr) (s : State) : (s.failedRead b).freeBytes = s.freeBytes := rfl
@[simp] theorem State.failedRead_accesses (b : Addr) (s : State) : (s.failedRead b).accesses = s.accesses ++ [.read b] := rfl

/-! ### `State.consume` -/

@[simp] theorem State.consume_a (o : Operand) (s : State) : (s.consume o).a = s.a := rfl
@[simp] theorem State.consume_x (o : Operand) (s : State) : (s.consume o).x = s.x := rfl
@[simp] theorem State.consume_y (o : Operand) (s : State) : (s.consume o).y = s.y := rfl
@[simp] theorem State.consume_s (o : Operand) (s : State) : (s.consume o).s = s.s := rfl
@[simp] theorem State.consume_p (o : Operand) (s : State) : (s.consume o).p = s.p := rfl
@[simp] theorem State.consume_pc (o : Operand) (s : State) : (s.consume o).pc = s.pc + BitVec.ofNat 16 (operandCount o.mode) := rfl
@[simp] theorem State.consume_vec (o : Operand) (s : State) : (s.consume o).vec = s.vec := rfl
@[simp] theorem State.consume_run (o : Operand) (s : State) : (s.consume o).run = s.run := rfl
@[simp] theorem State.consume_mem (o : Operand) (s : State) : (s.consume o).mem = s.mem := rfl
@[simp] theorem State.consume_params (o : Operand) (s : State) : (s.consume o).params = s.params := rfl
@[simp] theorem State.consume_freeBytes (o : Operand) (s : State) : (s.consume o).freeBytes = s.freeBytes := rfl
@[simp] theorem State.consume_accesses (o : Operand) (s : State) : (s.consume o).accesses = s.accesses := rfl

/-! ### `State.beginStep` -/

@[simp] theorem State.beginStep_a (s : State) : (s.beginStep).a = s.a := rfl
@[simp] theorem State.beginStep_x (s : State) : (s.beginStep).x = s.x := rfl
@[simp] theorem State.beginStep_y (s : State) : (s.beginStep).y = s.y := rfl
@[simp] theorem State.beginStep_s (s : State) : (s.beginStep).s = s.s := rfl
@[simp] theorem State.beginStep_p (s : State) : (s.beginStep).p = s.p := rfl
@[simp] theorem State.beginStep_pc (s : State) : (s.beginStep).pc = s.pc := rfl
@[simp] theorem State.beginStep_vec (s : State) : (s.beginStep).vec = s.vec := rfl
@[simp] theorem State.beginStep_run (s : State) : (s.beginStep).run = s.run := rfl
@[simp] theorem State.beginStep_mem (s : State) : (s.beginStep).mem = s.mem := rfl
@[simp] theorem State.beginStep_params (s : State) : (s.beginStep).params = s.params := rfl
@[simp] theorem State.beginStep_freeBytes (s : State) : (s.beginStep).freeBytes = s.freeBytes := rfl
@[simp] theorem State.beginStep_accesses (s : State) : (s.beginStep).accesses = [] := rfl

/-! ### `State.halt` -/

@[simp] theorem State.halt_a (s : State) : (s.halt).a = s.a := rfl
@[simp] theorem State.halt_x (s : State) : (s.halt).x = s.x := rfl
@[simp] theorem State.halt_y (s : State) : (s.halt).y = s.y := rfl
@[simp] theorem State.halt_s (s : State) : (s.halt).s = s.s := rfl
@[simp] theorem State.halt_p (s : State) : (s.halt).p = s.p := rfl
@[simp] theorem State.halt_pc (s : State) : (s.halt).pc = s.pc := rfl
@[simp] theorem State.halt_vec (s : State) : (s.halt).vec = s.vec := rfl
@[simp] theorem State.halt_run (s : State) : (s.halt).run = .halted := rfl
@[simp] theorem State.halt_mem (s : State) : (s.halt).mem = s.mem := rfl
@[simp] theorem State.halt_params (s : State) : (s.halt).params = s.params := rfl
@[simp] theorem State.halt_freeBytes (s : State) : (s.halt).freeBytes = s.freeBytes := rfl
@[simp] theorem State.halt_accesses (s : State) : (s.halt).accesses = s.accesses := rfl

end Sys2Proof.Machine
end

