-- ==== Sys2Proof/Laws/Bus.lean ====
section
/-! SUPPORT. What each bus read can do: answer the byte or the pointer with the accesses recorded and the
platform's side effects made, or raise `BusFailure` at the first failing address (spec/20_memory.md R56 to R62). -/

namespace Sys2Proof.Machine

/-! ### Read side effects -/

/-- A change by the platform keeps the canonical form. -/
theorem Memory.applyChanges_wf (cs : List Change) (m : Memory) (n : Nat) (h : m.wf = true) :
    (m.applyChanges cs n).1.wf = true := by
  induction cs generalizing m n with
  | nil => exact h
  | cons c rest ih =>
    simp only [Memory.applyChanges]
    split <;> exact ih _ _ (Memory.write_wf m c.addr _ h)

/-- The platform changes the listed addresses only. -/
theorem Memory.applyChanges_other (cs : List Change) (m : Memory) (n : Nat) (b : Addr)
    (h : ∀ c ∈ cs, c.addr ≠ b) : (m.applyChanges cs n).1.read b.toNat = m.read b.toNat := by
  induction cs generalizing m n with
  | nil => rfl
  | cons c rest ih =>
    have hb : b.toNat ≠ c.addr.toNat := fun e => h c (List.mem_cons_self ..) (BitVec.eq_of_toNat_eq e.symm)
    simp only [Memory.applyChanges]
    split <;> rw [ih _ _ fun d hd => h d (List.mem_cons_of_mem c hd), Memory.read_write_other _ _ _ _ hb]

@[simp] theorem State.afterReads_nil (s : State) : s.afterReads [] = s := rfl

@[simp] theorem State.afterReads_cons (s : State) (a : Addr) (as : List Addr) :
    s.afterReads (a :: as) = (s.afterRead a).afterReads as := rfl

theorem State.afterReads_append (s : State) (as bs : List Addr) :
    (s.afterReads as).afterReads bs = s.afterReads (as ++ bs) := by
  induction as generalizing s with
  | nil => rfl
  | cons a rest ih => exact ih (s.afterRead a)

/-- Reads change memory, the count of free bytes and the record of accesses, nothing else. -/
theorem State.afterReads_eq (s : State) (as : List Addr) :
    s.afterReads as = { s with
      mem := (s.afterReads as).mem, freeBytes := (s.afterReads as).freeBytes,
      accesses := s.accesses ++ as.map .read } := by
  induction as generalizing s with
  | nil => simp
  | cons a rest ih =>
    rw [State.afterReads_cons, ih (s.afterRead a)]
    simp [State.afterRead, State.platformChanges, State.logAccess]

/-- Reads keep the canonical form of memory. -/
theorem State.afterReads_wf (s : State) (as : List Addr) (h : s.mem.wf = true) :
    (s.afterReads as).mem.wf = true := by
  induction as generalizing s with
  | nil => exact h
  | cons a rest ih => exact ih _ (Memory.applyChanges_wf _ _ _ h)

/-- On a platform without read side effects a read records the access and does nothing else (R62). -/
theorem State.afterRead_flat (s : State) (a : Addr) (h : s.params.platform.readEffects = []) :
    s.afterRead a = s.logAccess (.read a) := by
  simp [State.afterRead, State.platformChanges, Platform.changesOnRead, h, Memory.applyChanges, State.logAccess]

/-- On a platform without read side effects reads leave memory alone (R62). -/
theorem State.afterReads_flat_mem (s : State) (as : List Addr) (h : s.params.platform.readEffects = []) :
    (s.afterReads as).mem = s.mem := by
  induction as generalizing s with
  | nil => rfl
  | cons a rest ih =>
    rw [State.afterReads_cons, ih (s.afterRead a) h, State.afterRead_flat s a h, State.logAccess_mem]

/-- Writes to other fields commute with reads: memory after reads depends on memory, the count of free bytes and
the parameters alone. -/
theorem State.afterReads_mem_congr (s t : State) (as : List Addr) (hm : t.mem = s.mem)
    (hf : t.freeBytes = s.freeBytes) (hp : t.params = s.params) :
    (t.afterReads as).mem = (s.afterReads as).mem ∧ (t.afterReads as).freeBytes = (s.afterReads as).freeBytes := by
  induction as generalizing s t with
  | nil => exact ⟨hm, hf⟩
  | cons a rest ih => exact ih _ _ (by simp [hm, hf, hp]) (by simp [hm, hf, hp]) (by simp [hp])

@[simp] theorem State.afterReads_params (s : State) (as : List Addr) : (s.afterReads as).params = s.params := by
  rw [State.afterReads_eq]

@[simp] theorem State.readFails_afterRead (s : State) (a b : Addr) :
    (s.afterRead a).readFails b = s.readFails b := rfl

@[simp] theorem State.readFails_afterReads (s : State) (as : List Addr) (b : Addr) :
    (s.afterReads as).readFails b = s.readFails b := by
  simp [State.readFails]

/-! ### The primitives where no read fails -/

theorem State.busRead_ok (a : Addr) (s : State) (h : s.readFails a = false) :
    s.busRead a = .ok (s.byteAt a) (s.afterRead a) := by
  simp [State.busRead, h]

theorem State.busRead_fails (a : Addr) (s : State) (h : s.readFails a = true) :
    s.busRead a = .raised (s.failedRead a) := by
  simp [State.busRead, h]

/-- A 16-bit read answers the little-endian value of its two bytes where neither fails. -/
theorem State.busRead16_ok (a : Addr) (s : State) (h0 : s.readFails a = false)
    (h1 : s.readFails (a + 1) = false) :
    s.busRead16 a = .ok (s.wordRead a (a + 1)) (s.afterReads [a, a + 1]) := by
  simp only [State.busRead16, State.busRead_ok _ _ h0, Attempt.andThen,
    State.busRead_ok (a + 1) (s.afterRead a) h1]
  rfl

/-- A zero-page pointer read answers the little-endian value of its two bytes where neither fails. -/
theorem State.busReadZP_ok (z : Byte) (s : State) (h0 : s.readFails (zext16 z) = false)
    (h1 : s.readFails (zext16 (z + 1)) = false) :
    s.busReadZP z = .ok (s.wordRead (zext16 z) (zext16 (z + 1))) (s.afterReads [zext16 z, zext16 (z + 1)]) := by
  simp only [State.busReadZP, State.busRead_ok _ _ h0, Attempt.andThen,
    State.busRead_ok (zext16 (z + 1)) (s.afterRead (zext16 z)) h1]
  rfl

/-- Reading `n` bytes answers the `n` bytes at ascending addresses where none fails. -/
theorem State.busReadN_ok (n : Nat) (a : Addr) (s : State)
    (h : ∀ b ∈ addressesFrom n a, s.readFails b = false) :
    s.busReadN n a = .ok (s.bytesRead (addressesFrom n a)) (s.afterReads (addressesFrom n a)) := by
  induction n generalizing a s with
  | zero => rfl
  | succ n ih =>
    have h0 : s.readFails a = false := h a (List.mem_cons_self ..)
    have hr := ih (a + 1) (s.afterRead a) (fun b hb => h b (List.mem_cons_of_mem a hb))
    simp only [State.busReadN, State.busRead_ok _ _ h0, Attempt.andThen, hr, addressesFrom]
    rfl

/-! ### What a piece of a step that only reads can do -/

/-- `t` is `s` after answered bus reads only. -/
def AfterReads (s t : State) : Prop := ∃ as : List Addr, t = s.afterReads as

/-- `t` is `s` after bus reads of which the last failed. -/
def AfterBusFailure (s t : State) : Prop :=
  ∃ (as : List Addr) (a : Addr), t = (s.afterReads as).failedRead a

theorem AfterReads.refl (s : State) : AfterReads s s := ⟨[], rfl⟩

theorem AfterReads.trans {s t u : State} (h : AfterReads s t) (k : AfterReads t u) : AfterReads s u := by
  obtain ⟨as, rfl⟩ := h
  obtain ⟨bs, rfl⟩ := k
  exact ⟨as ++ bs, State.afterReads_append s as bs⟩

theorem AfterReads.thenFails {s t u : State} (h : AfterReads s t) (k : AfterBusFailure t u) :
    AfterBusFailure s u := by
  obtain ⟨as, rfl⟩ := h
  obtain ⟨bs, a, rfl⟩ := k
  exact ⟨as ++ bs, a, by rw [State.afterReads_append]⟩

/-- The piece either answers a value after reads only, or ends the step with a bus failure. -/
def ReadsOnly {α : Type} (s : State) (r : Attempt α) : Prop :=
  (∃ v t, r = .ok v t ∧ AfterReads s t) ∨ (∃ t, r = .raised t ∧ AfterBusFailure s t)

theorem readsOnly_ok {α : Type} (v : α) (s : State) : ReadsOnly s (.ok v s) :=
  .inl ⟨v, s, rfl, .refl s⟩

theorem ReadsOnly.andThen {α β : Type} {s : State} {r : Attempt α} (h : ReadsOnly s r)
    (f : α → State → Attempt β) (hf : ∀ v t, ReadsOnly t (f v t)) : ReadsOnly s (r.andThen f) := by
  obtain ⟨v, t, rfl, ht⟩ | ⟨t, rfl, ht⟩ := h
  · obtain ⟨w, u, hu, htu⟩ | ⟨u, hu, htu⟩ := hf v t
    · exact .inl ⟨w, u, hu, ht.trans htu⟩
    · exact .inr ⟨u, hu, ht.thenFails htu⟩
  · exact .inr ⟨t, rfl, ht⟩

theorem State.busRead_readsOnly (a : Addr) (s : State) : ReadsOnly s (s.busRead a) := by
  cases h : s.readFails a with
  | false => exact .inl ⟨_, _, State.busRead_ok a s h, [a], rfl⟩
  | true => exact .inr ⟨_, State.busRead_fails a s h, [], a, rfl⟩

theorem State.busRead16_readsOnly (a : Addr) (s : State) : ReadsOnly s (s.busRead16 a) :=
  (s.busRead_readsOnly a).andThen _ fun _ t => (t.busRead_readsOnly _).andThen _ fun _ u => readsOnly_ok _ u

theorem State.busReadZP_readsOnly (z : Byte) (s : State) : ReadsOnly s (s.busReadZP z) :=
  (s.busRead_readsOnly _).andThen _ fun _ t => (t.busRead_readsOnly _).andThen _ fun _ u => readsOnly_ok _ u

theorem State.busReadN_readsOnly (n : Nat) (a : Addr) (s : State) : ReadsOnly s (s.busReadN n a) := by
  induction n generalizing a s with
  | zero => exact readsOnly_ok [] s
  | succ n ih =>
    exact (s.busRead_readsOnly a).andThen _ fun _ t => (ih (a + 1) t).andThen _ fun _ u => readsOnly_ok _ u

end Sys2Proof.Machine
end

