-- ==== Sys2Proof/Laws/Flags.lean ====
section
/-! SUPPORT. The status byte: what one flag write does to every flag (spec/10_state.md R26, R27), and so what
ADC, the transfers and the increments do to each. -/

namespace Sys2Proof.Machine

/-- Writing a flag sets it and keeps the other seven. -/
@[simp] theorem getFlag_putFlag (f g : Flag) (v : Bool) (p : Byte) :
    getFlag g (putFlag f v p) = if g = f then v else getFlag g p := by
  cases v <;> cases f <;> cases g <;> simp [getFlag, putFlag, flagMask, flagBit]

/-- A status byte is its eight flags. -/
theorem status_ext (p q : Byte) (h : ∀ f, getFlag f p = getFlag f q) : p = q := by
  apply BitVec.eq_of_getLsbD_eq
  intro i hi
  have hb : ∃ f : Flag, flagBit f = i := by
    interval_cases i
    · exact ⟨.carry, rfl⟩
    · exact ⟨.zero, rfl⟩
    · exact ⟨.interruptDisable, rfl⟩
    · exact ⟨.decimal, rfl⟩
    · exact ⟨.breakRight, rfl⟩
    · exact ⟨.breakLeft, rfl⟩
    · exact ⟨.overflow, rfl⟩
    · exact ⟨.negative, rfl⟩
  obtain ⟨f, rfl⟩ := hb
  exact h f

/-- Zero and Negative describe the byte, the other six flags are kept. -/
theorem getFlag_putZeroNegative (g : Flag) (r p : Byte) :
    getFlag g (putZeroNegative r p) =
      if g = .negative then r.msb else if g = .zero then r == 0 else getFlag g p := by
  simp [putZeroNegative]

/-- ADC writes C, Z, V and N and keeps the other four flags. -/
theorem getFlag_adcStatus (g : Flag) (a i r p : Byte) :
    getFlag g (adcStatus a i r p) =
      if g = .negative then r.msb else if g = .zero then r == 0
      else if g = .overflow then adcOverflow a r else if g = .carry then adcCarry i r
      else getFlag g p := by
  simp [adcStatus, getFlag_putZeroNegative]

end Sys2Proof.Machine
end

