-- ==== Sys2Proof/Laws/Operands.lean ====
section
/-! SUPPORT. What the resolver and the three shapes of execution can do (spec/40_step_and_addressing.md R106 to
R129). -/

namespace Sys2Proof.Machine

/-- `zext_16(b)` is the byte under a zero high byte (00_scope R5). -/
theorem zext16_eq (b : Byte) : zext16 b = 0x00#8 ++ b := by
  apply BitVec.eq_of_getLsbD_eq
  intro i _
  simp only [zext16, BitVec.getLsbD_setWidth, BitVec.getLsbD_append, BitVec.getLsbD_zero]
  split
  · simp_all
  · simp_all [BitVec.getLsbD_of_ge]

@[simp] theorem State.readable_nil (s : State) : s.readable [] = true := rfl

theorem State.readable_cons (s : State) (a : Addr) (as : List Addr) :
    s.readable (a :: as) = (!s.readFails a && s.readable as) := rfl

theorem Attempt.andThen_assoc {α β γ : Type} (r : Attempt α) (f : α → State → Attempt β)
    (g : β → State → Attempt γ) : (r.andThen f).andThen g = r.andThen fun v t => (f v t).andThen g := by
  cases r <;> rfl

/-- A location is resolved by reads only, except under Relative, which gives no location (R113). -/
theorem State.resolveLocation_readsOnly (o : Operand) (s : State) (h : ∀ d, o ≠ .relative d) :
    ReadsOnly s (s.resolveLocation o) := by
  cases o with
  | relative d => exact absurd rfl (h d)
  | indirect w => exact (s.busRead16_readsOnly w).andThen _ fun ea t => readsOnly_ok _ t
  | indirectX z => exact (s.busReadZP_readsOnly _).andThen _ fun ea t => readsOnly_ok _ t
  | indirectY z => exact (s.busReadZP_readsOnly z).andThen _ fun ea t => readsOnly_ok _ t
  | _ => exact readsOnly_ok _ s

/-- Where a mode gives an address, resolving it raises nothing but a bus failure (R129). -/
theorem State.resolveAddress_readsOnly (o : Operand) (s : State) (h : addressFault o = none) :
    ReadsOnly s (s.resolveAddress o) := by
  cases o with
  | implied => cases h
  | accumulator => cases h
  | immediate v => cases h
  | relative d => cases h
  | indirect w =>
    simp only [State.resolveAddress, State.resolveLocation, Attempt.andThen_assoc]
    exact (s.busRead16_readsOnly w).andThen _ fun ea t => readsOnly_ok ea t
  | indirectX z =>
    simp only [State.resolveAddress, State.resolveLocation, Attempt.andThen_assoc]
    exact (s.busReadZP_readsOnly _).andThen _ fun ea t => readsOnly_ok ea t
  | indirectY z =>
    simp only [State.resolveAddress, State.resolveLocation, Attempt.andThen_assoc]
    exact (s.busReadZP_readsOnly z).andThen _ fun ea t => readsOnly_ok (ea + zext16 s.y) t
  | zeroPage z => exact readsOnly_ok (zext16 z) s
  | zeroPageX z => exact readsOnly_ok (zext16 (z + s.x)) s
  | zeroPageY z => exact readsOnly_ok (zext16 (z + s.y)) s
  | absolute w => exact readsOnly_ok w s
  | absoluteX w => exact readsOnly_ok (w + zext16 s.x) s
  | absoluteY w => exact readsOnly_ok (w + zext16 s.y) s

/-- A mode that gives a byte gives an address too, or is Immediate. -/
theorem addressFault_of_byteFault (o : Operand) (h : byteFault o = none) :
    (∃ v, o = .immediate v) ∨ addressFault o = none := by
  cases o <;> simp_all [byteFault, addressFault]

/-- Where a mode gives a byte, resolving it raises nothing but a bus failure (R129). -/
theorem State.resolveByte_readsOnly (o : Operand) (s : State) (h : byteFault o = none) :
    ReadsOnly s (s.resolveByte o) := by
  obtain ⟨v, rfl⟩ | ha := addressFault_of_byteFault o h
  · exact readsOnly_ok v s
  · have hr : s.resolveByte o = (s.resolveAddress o).andThen fun ea t => t.busRead ea := by
      cases o <;> simp_all [State.resolveByte, byteFault, addressFault]
    rw [hr]
    exact (s.resolveAddress_readsOnly o ha).andThen _ fun ea t => t.busRead_readsOnly ea

/-! ### The three shapes of execution -/

/-- An operation with a byte input raises `InvalidAddressing` before it moves `PC`, or raises a bus failure
after the operands are consumed, or applies `f` after reads only. -/
theorem withByte_cases (o : Operand) (s : State) (f : Byte → State → State) :
    (∃ k, byteFault o = some k ∧ withByte o s f = .next (s.raise k)) ∨
    (∃ t, AfterBusFailure (s.consume o) t ∧ withByte o s f = .next t) ∨
    (∃ v t, AfterReads (s.consume o) t ∧ withByte o s f = .next (f v t)) := by
  cases hb : byteFault o with
  | some k => exact .inl ⟨k, rfl, by simp [withByte, hb]⟩
  | none =>
    obtain ⟨v, t, hr, ht⟩ | ⟨t, hr, ht⟩ := State.resolveByte_readsOnly o (s.consume o) hb
    · exact .inr (.inr ⟨v, t, ht, by simp [withByte, hb, hr]⟩)
    · exact .inr (.inl ⟨t, ht, by simp [withByte, hb, hr]⟩)

/-- An operation with an address input raises `InvalidAddressing` before it moves `PC`, or raises a bus failure
after the operands are consumed, or applies `f` after reads only. -/
theorem withAddress_cases (o : Operand) (s : State) (f : Addr → State → State) :
    (∃ k, addressFault o = some k ∧ withAddress o s f = .next (s.raise k)) ∨
    (∃ t, AfterBusFailure (s.consume o) t ∧ withAddress o s f = .next t) ∨
    (∃ ea t, AfterReads (s.consume o) t ∧ withAddress o s f = .next (f ea t)) := by
  cases hb : addressFault o with
  | some k => exact .inl ⟨k, rfl, by simp [withAddress, hb]⟩
  | none =>
    obtain ⟨ea, t, hr, ht⟩ | ⟨t, hr, ht⟩ := State.resolveAddress_readsOnly o (s.consume o) hb
    · exact .inr (.inr ⟨ea, t, ht, by simp [withAddress, hb, hr]⟩)
    · exact .inr (.inl ⟨t, ht, by simp [withAddress, hb, hr]⟩)

/-- An operation without an input applies `f` after the operands are consumed. -/
theorem withoutInput_eq (o : Operand) (s : State) (f : State → State) :
    withoutInput o s f = .next (f (s.consume o)) := rfl

/-- An operation without a semantic mapping only raises (R200). -/
theorem unimplemented_eq (op : Operation) (s : State) :
    unimplemented op s = .next (s.raise (.unimplementedOperation op)) := rfl

end Sys2Proof.Machine
end

