-- ==== Sys2Proof/Laws/PerInstr.lean ====
section
/-! SUPPORT. Per-instruction family: an instruction is made again from its operation and its operand form, so
that nothing of it is lost between the decoder, which makes it from them, and the encoder, which reads them. -/

namespace Sys2Proof.Laws

/-- The instruction is the one its operation makes with its operand form. -/
def Shape.Statement (i : Instr) : Prop := makeInstr i.operation i.operand = i

theorem Shape.adc (o : Operand) : Shape.Statement (.adc o) := rfl
theorem Shape.and (o : Operand) : Shape.Statement (.and o) := rfl
theorem Shape.asl (o : Operand) : Shape.Statement (.asl o) := rfl
theorem Shape.bcc (o : Operand) : Shape.Statement (.bcc o) := rfl
theorem Shape.bcs (o : Operand) : Shape.Statement (.bcs o) := rfl
theorem Shape.beq (o : Operand) : Shape.Statement (.beq o) := rfl
theorem Shape.bit (o : Operand) : Shape.Statement (.bit o) := rfl
theorem Shape.bmi (o : Operand) : Shape.Statement (.bmi o) := rfl
theorem Shape.bne (o : Operand) : Shape.Statement (.bne o) := rfl
theorem Shape.bpl (o : Operand) : Shape.Statement (.bpl o) := rfl
theorem Shape.brk (o : Operand) : Shape.Statement (.brk o) := rfl
theorem Shape.bvc (o : Operand) : Shape.Statement (.bvc o) := rfl
theorem Shape.bvs (o : Operand) : Shape.Statement (.bvs o) := rfl
theorem Shape.clc (o : Operand) : Shape.Statement (.clc o) := rfl
theorem Shape.cld (o : Operand) : Shape.Statement (.cld o) := rfl
theorem Shape.cli (o : Operand) : Shape.Statement (.cli o) := rfl
theorem Shape.clv (o : Operand) : Shape.Statement (.clv o) := rfl
theorem Shape.cmp (o : Operand) : Shape.Statement (.cmp o) := rfl
theorem Shape.cpx (o : Operand) : Shape.Statement (.cpx o) := rfl
theorem Shape.cpy (o : Operand) : Shape.Statement (.cpy o) := rfl
theorem Shape.dec (o : Operand) : Shape.Statement (.dec o) := rfl
theorem Shape.dex (o : Operand) : Shape.Statement (.dex o) := rfl
theorem Shape.dey (o : Operand) : Shape.Statement (.dey o) := rfl
theorem Shape.eor (o : Operand) : Shape.Statement (.eor o) := rfl
theorem Shape.inc (o : Operand) : Shape.Statement (.inc o) := rfl
theorem Shape.inx (o : Operand) : Shape.Statement (.inx o) := rfl
theorem Shape.iny (o : Operand) : Shape.Statement (.iny o) := rfl
theorem Shape.jmp (o : Operand) : Shape.Statement (.jmp o) := rfl
theorem Shape.jsr (o : Operand) : Shape.Statement (.jsr o) := rfl
theorem Shape.lda (o : Operand) : Shape.Statement (.lda o) := rfl
theorem Shape.ldx (o : Operand) : Shape.Statement (.ldx o) := rfl
theorem Shape.ldy (o : Operand) : Shape.Statement (.ldy o) := rfl
theorem Shape.lsr (o : Operand) : Shape.Statement (.lsr o) := rfl
theorem Shape.nop (o : Operand) : Shape.Statement (.nop o) := rfl
theorem Shape.ora (o : Operand) : Shape.Statement (.ora o) := rfl
theorem Shape.pha (o : Operand) : Shape.Statement (.pha o) := rfl
theorem Shape.php (o : Operand) : Shape.Statement (.php o) := rfl
theorem Shape.pla (o : Operand) : Shape.Statement (.pla o) := rfl
theorem Shape.plp (o : Operand) : Shape.Statement (.plp o) := rfl
theorem Shape.rol (o : Operand) : Shape.Statement (.rol o) := rfl
theorem Shape.ror (o : Operand) : Shape.Statement (.ror o) := rfl
theorem Shape.rti (o : Operand) : Shape.Statement (.rti o) := rfl
theorem Shape.rts (o : Operand) : Shape.Statement (.rts o) := rfl
theorem Shape.sbc (o : Operand) : Shape.Statement (.sbc o) := rfl
theorem Shape.sec (o : Operand) : Shape.Statement (.sec o) := rfl
theorem Shape.sed (o : Operand) : Shape.Statement (.sed o) := rfl
theorem Shape.sei (o : Operand) : Shape.Statement (.sei o) := rfl
theorem Shape.sta (o : Operand) : Shape.Statement (.sta o) := rfl
theorem Shape.stx (o : Operand) : Shape.Statement (.stx o) := rfl
theorem Shape.sty (o : Operand) : Shape.Statement (.sty o) := rfl
theorem Shape.tax (o : Operand) : Shape.Statement (.tax o) := rfl
theorem Shape.tay (o : Operand) : Shape.Statement (.tay o) := rfl
theorem Shape.tsx (o : Operand) : Shape.Statement (.tsx o) := rfl
theorem Shape.txa (o : Operand) : Shape.Statement (.txa o) := rfl
theorem Shape.txs (o : Operand) : Shape.Statement (.txs o) := rfl
theorem Shape.tya (o : Operand) : Shape.Statement (.tya o) := rfl

end Sys2Proof.Laws
end

