-- ==== Sys2Proof/Laws/Step.lean ====
section
/-! SUPPORT. Everything an instruction's meaning can do, and everything the part of a step before dispatch can
do (spec/40_step_and_addressing.md R100 to R107), said once. -/

namespace Sys2Proof.Machine

/-- `t` is `u` with an operation's register writes: `S`, `VEC`, `RUN`, memory, the parameters, the accesses and
the two break bits are kept. -/
def RegisterWrites (u t : State) : Prop :=
  t = { u with a := t.a, x := t.x, y := t.y, p := t.p, pc := t.pc } ∧
  t.flag .breakLeft = u.flag .breakLeft ∧ t.flag .breakRight = u.flag .breakRight

theorem registerWrites_setPc (u : State) (w : Addr) : RegisterWrites u (u.setPc w) := ⟨rfl, rfl, rfl⟩

theorem registerWrites_refl (u : State) : RegisterWrites u u := ⟨rfl, rfl, rfl⟩

theorem registerWrites_setFlag (u : State) (f : Flag) (v : Bool) (hl : f ≠ .breakLeft) (hr : f ≠ .breakRight) :
    RegisterWrites u (u.setFlag f v) :=
  ⟨rfl, by simp [State.flag, hl.symm], by simp [State.flag, hr.symm]⟩

theorem registerWrites_status (u t : State) (h : t = { u with a := t.a, x := t.x, y := t.y, p := t.p, pc := t.pc })
    (r : Byte) (hp : t.p = putZeroNegative r u.p) : RegisterWrites u t :=
  ⟨h, by simp [State.flag, hp, getFlag_putZeroNegative], by simp [State.flag, hp, getFlag_putZeroNegative]⟩

theorem registerWrites_adc (u : State) (i : Byte) : RegisterWrites u (u.addWithCarry i) :=
  ⟨rfl, by simp [State.flag, State.addWithCarry, getFlag_adcStatus],
    by simp [State.flag, State.addWithCarry, getFlag_adcStatus]⟩

/-- The fault an instruction raises before anything is written: no semantic mapping (R105), or a mode that
cannot give what the operation asks for (R106 a). -/
def FirstFault (op : Operation) (o : Operand) (k : FaultKind) : Prop :=
  (op.implemented = false ∧ k = .unimplementedOperation op) ∨
  (op = .adc ∧ byteFault o = some k) ∨ (op = .jmp ∧ addressFault o = some k)

/-- What `exec` answers: a fault raised before anything is written (R105, R106 a), a bus failure after the
operands are consumed (R106 c), or the register writes of an operation after reads only (R106 d). -/
def ExecEffect (op : Operation) (o : Operand) (s : State) (r : Host.Outcome State Fault Refusal) : Prop :=
  (∃ k, FirstFault op o k ∧ r = .next (s.raise k)) ∨
  (op.implemented = true ∧ ∃ t, AfterBusFailure (s.consume o) t ∧ r = .next t) ∨
  (op.implemented = true ∧ ∃ u t, AfterReads (s.consume o) u ∧ RegisterWrites u t ∧ r = .next t)

theorem execEffect_withByte (o : Operand) (s : State) (f : Byte → State → State)
    (hf : ∀ v u, RegisterWrites u (f v u)) : ExecEffect .adc o s (withByte o s f) := by
  obtain ⟨k, hk, h⟩ | ⟨t, ht, h⟩ | ⟨v, u, hu, h⟩ := withByte_cases o s f
  · exact .inl ⟨k, .inr (.inl ⟨rfl, hk⟩), h⟩
  · exact .inr (.inl ⟨rfl, t, ht, h⟩)
  · exact .inr (.inr ⟨rfl, u, f v u, hu, hf v u, h⟩)

theorem execEffect_withAddress (o : Operand) (s : State) (f : Addr → State → State)
    (hf : ∀ v u, RegisterWrites u (f v u)) : ExecEffect .jmp o s (withAddress o s f) := by
  obtain ⟨k, hk, h⟩ | ⟨t, ht, h⟩ | ⟨v, u, hu, h⟩ := withAddress_cases o s f
  · exact .inl ⟨k, .inr (.inr ⟨rfl, hk⟩), h⟩
  · exact .inr (.inl ⟨rfl, t, ht, h⟩)
  · exact .inr (.inr ⟨rfl, u, f v u, hu, hf v u, h⟩)

theorem execEffect_withoutInput (op : Operation) (o : Operand) (s : State) (f : State → State)
    (hi : op.implemented = true) (hf : RegisterWrites (s.consume o) (f (s.consume o))) :
    ExecEffect op o s (withoutInput o s f) :=
  .inr (.inr ⟨hi, s.consume o, f (s.consume o), .refl _, hf, rfl⟩)

theorem execEffect_unimplemented (op : Operation) (o : Operand) (s : State) (h : op.implemented = false) :
    ExecEffect op o s (unimplemented op s) := .inl ⟨_, .inl ⟨h, rfl⟩, rfl⟩

/-- Every instruction in every form answers one of the three. -/
theorem exec_effect (i : Instr) (s : State) : ExecEffect i.operation i.operand s (exec i s) := by
  cases i with
  | adc o => exact execEffect_withByte o s _ fun v u => registerWrites_adc u v
  | jmp o => exact execEffect_withAddress o s _ fun v u => registerWrites_setPc u v
  | clc o =>
    exact execEffect_withoutInput .clc o s _ rfl (registerWrites_setFlag _ _ _ (by decide) (by decide))
  | cld o =>
    exact execEffect_withoutInput .cld o s _ rfl (registerWrites_setFlag _ _ _ (by decide) (by decide))
  | cli o =>
    exact execEffect_withoutInput .cli o s _ rfl (registerWrites_setFlag _ _ _ (by decide) (by decide))
  | clv o =>
    exact execEffect_withoutInput .clv o s _ rfl (registerWrites_setFlag _ _ _ (by decide) (by decide))
  | sec o =>
    exact execEffect_withoutInput .sec o s _ rfl (registerWrites_setFlag _ _ _ (by decide) (by decide))
  | sed o =>
    exact execEffect_withoutInput .sed o s _ rfl (registerWrites_setFlag _ _ _ (by decide) (by decide))
  | sei o =>
    exact execEffect_withoutInput .sei o s _ rfl (registerWrites_setFlag _ _ _ (by decide) (by decide))
  | tax o =>
    exact execEffect_withoutInput .tax o s (fun t => (t.setX t.a).setZeroNegative t.a) rfl
      (registerWrites_status _ _ rfl s.a rfl)
  | tay o =>
    exact execEffect_withoutInput .tay o s (fun t => (t.setY t.a).setZeroNegative t.a) rfl
      (registerWrites_status _ _ rfl s.a rfl)
  | txa o =>
    exact execEffect_withoutInput .txa o s (fun t => (t.setA t.x).setZeroNegative t.x) rfl
      (registerWrites_status _ _ rfl s.x rfl)
  | tya o =>
    exact execEffect_withoutInput .tya o s (fun t => (t.setA t.y).setZeroNegative t.y) rfl
      (registerWrites_status _ _ rfl s.y rfl)
  | inx o =>
    exact execEffect_withoutInput .inx o s (fun t => (t.setX (t.x + 1)).setZeroNegative (t.x + 1)) rfl
      (registerWrites_status _ _ rfl (s.x + 1) rfl)
  | iny o =>
    exact execEffect_withoutInput .iny o s (fun t => (t.setY (t.y + 1)).setZeroNegative (t.y + 1)) rfl
      (registerWrites_status _ _ rfl (s.y + 1) rfl)
  | nop o =>
    exact execEffect_withoutInput .nop o s (fun t => t) rfl
      (registerWrites_refl _)
  | _ o => exact execEffect_unimplemented _ o s rfl

/-- What the part of a step before dispatch gives (R100 to R104). -/
theorem State.fetch_cases (s : State) :
    (s.run = .halted ∧ s.fetch = .noStep .halted) ∨
    (∃ k, s.run = .faulted k ∧ s.fetch = .noStep (.ended k)) ∨
    (s.run = .running ∧ s.atBoundary = true ∧ s.fetch = .over s.beginStep.halt) ∨
    (s.run = .running ∧ s.atBoundary = false ∧ s.readFails s.pc = true ∧
      s.fetch = .over (s.beginStep.failedRead s.pc)) ∨
    (s.run = .running ∧ s.atBoundary = false ∧ s.readFails s.pc = false ∧
      s.params.optab.lookup (s.byteAt s.pc) = none ∧
      s.fetch = .over ((s.beginStep.afterRead s.pc).raise (.decodeFailure (s.byteAt s.pc)))) ∨
    (s.run = .running ∧ s.atBoundary = false ∧ s.readFails s.pc = false ∧
      ∃ r, s.params.optab.lookup (s.byteAt s.pc) = some r ∧
        s.fetch = (s.beginStep.afterRead s.pc).readOperands r) := by
  cases hr : s.run with
  | halted => exact .inl ⟨rfl, by simp [State.fetch, hr]⟩
  | faulted k => exact .inr (.inl ⟨k, rfl, by simp [State.fetch, hr]⟩)
  | running =>
    cases hb : s.atBoundary with
    | true => exact .inr (.inr (.inl ⟨rfl, rfl, by simp [State.fetch, hr, hb]⟩))
    | false =>
      have hf : s.fetch = s.beginStep.fetchInstr := by simp [State.fetch, hr, hb]
      rw [hf]
      cases hp : s.readFails s.pc with
      | true =>
        have hx := State.busRead_fails s.pc s.beginStep hp
        refine .inr (.inr (.inr (.inl ⟨rfl, rfl, rfl, ?_⟩)))
        simp only [State.fetchInstr, State.beginStep_pc, hx]
      | false =>
        have hx := State.busRead_ok s.pc s.beginStep hp
        cases hl : s.params.optab.lookup (s.byteAt s.pc) with
        | none =>
          refine .inr (.inr (.inr (.inr (.inl ⟨rfl, rfl, rfl, rfl, ?_⟩))))
          have hl' : (s.beginStep.afterRead s.pc).params.optab.lookup (s.beginStep.byteAt s.pc) = none := hl
          simp only [State.fetchInstr, State.beginStep_pc, hx, hl']
          rfl
        | some r =>
          have hl' : (s.beginStep.afterRead s.pc).params.optab.lookup (s.beginStep.byteAt s.pc) = some r := hl
          refine .inr (.inr (.inr (.inr (.inr ⟨rfl, rfl, rfl, r, rfl, ?_⟩))))
          simp only [State.fetchInstr, State.beginStep_pc, hx, hl']

/-- The operand read answers the row's instruction after reads only, or ends the step with a bus failure; `PC`
is past the opcode byte in both (R103, R104). -/
theorem State.readOperands_cases (r : Row) (s : State) :
    (∃ t, AfterBusFailure (s.advance 1) t ∧ s.readOperands r = .over t) ∨
    (∃ ops t, AfterReads (s.advance 1) t ∧ s.readOperands r = .ready (r.instr ops) t) := by
  obtain ⟨ops, t, h, ht⟩ | ⟨t, h, ht⟩ :=
    State.busReadN_readsOnly (operandCount r.mode) (s.pc + 1) (s.advance 1)
  · exact .inr ⟨ops, t, ht, by simp only [State.readOperands, h]⟩
  · exact .inl ⟨t, ht, by simp only [State.readOperands, h]⟩

end Sys2Proof.Machine
end

