-- ==== Sys2Proof/Tests/Slice0.lean ====
section
/-! SUPPORT. Tests of the model: decoding words written out from the spec's table, steps from the spec's vectors
(spec/95_test_vectors.md), the WellFormed smoke test, and a witness for the hypotheses of every statement. -/

namespace Sys2Proof.Tests

open Sys2Proof.Machine

/-! ### WellFormed refuses ill-formed terms (30_encoding R86) -/

theorem test_wellFormed_refuses_unpaired_modes :
    (Instr.adc .accumulator).wellFormed = false ∧ (Instr.jmp (.zeroPage 0x10)).wellFormed = false ∧
    (Instr.clc (.immediate 0x05)).wellFormed = false ∧ (Instr.ldx (.zeroPageX 0x10)).wellFormed = false ∧
    (Instr.sta (.immediate 0x05)).wellFormed = false ∧ (Instr.bne .implied).wellFormed = false := by decide

theorem test_wellFormed_accepts_paired_modes :
    (Instr.adc (.indirectY 0x10)).wellFormed = true ∧ (Instr.jmp (.indirect 0x1234)).wellFormed = true ∧
    (Instr.ldx (.zeroPageY 0x10)).wellFormed = true ∧ (Instr.asl .accumulator).wellFormed = true := by decide

/-! ### The default table (R86, R94) -/

theorem test_table_has_151_rows : standardRows.length = 151 := by decide +kernel

theorem test_table_rows_are_well_formed :
    standardRows.all (fun r => r.operation.modes.contains r.mode) = true := by decide +kernel

theorem test_table_opcodes_are_distinct : (standardRows.map Row.opcode).Nodup := by decide +kernel

/-- Vectors V40 to V40i: operation, mode, length, base cycles. -/
theorem test_lookup_gives_the_tuple :
    ([0x69, 0x71, 0x4C, 0x6C, 0xEA, 0xA9, 0xB6, 0x0A, 0xD0, 0x00] : List Byte).map (fun b =>
      (Optab.standard.lookup b).map fun r => (r.operation, r.mode, r.length, r.baseCycles)) =
    [some (.adc, .immediate, 2, 2), some (.adc, .indirectY, 2, 5), some (.jmp, .absolute, 3, 3),
     some (.jmp, .indirect, 3, 5), some (.nop, .implied, 1, 2), some (.lda, .immediate, 2, 2),
     some (.ldx, .zeroPageY, 2, 4), some (.asl, .accumulator, 1, 2), some (.bne, .relative, 2, 2),
     some (.brk, .implied, 1, 7)] := by decide

/-- Vector V41. -/
theorem test_decode_refuses_by_name :
    ([0x02, 0x04, 0x0C, 0x1A, 0x80, 0x89, 0xFF] : List Byte).map (fun b => decode .standard [b, 0, 0]) =
    [.error (.unknownOpcode 0x02), .error (.unknownOpcode 0x04), .error (.unknownOpcode 0x0C),
     .error (.unknownOpcode 0x1A), .error (.unknownOpcode 0x80), .error (.unknownOpcode 0x89),
     .error (.unknownOpcode 0xFF)] := by decide

theorem test_decode_refuses_a_short_list :
    decode .standard [0x6D, 0x34] = .error .truncated ∧ decode .standard [] = .error .truncated := by decide

/-! ### Every row decodes: words from the encodings of R86, operand bytes 34 12 where the row has them -/

theorem test_decode_adc :
    decodeTableWord 16 0x3461 = some (.adc (.indirectX 0x34)) ∧
    decodeTableWord 16 0x3465 = some (.adc (.zeroPage 0x34)) ∧
    decodeTableWord 16 0x3469 = some (.adc (.immediate 0x34)) ∧
    decodeTableWord 24 0x12346D = some (.adc (.absolute 0x1234)) ∧
    decodeTableWord 16 0x3471 = some (.adc (.indirectY 0x34)) ∧
    decodeTableWord 16 0x3475 = some (.adc (.zeroPageX 0x34)) ∧
    decodeTableWord 24 0x123479 = some (.adc (.absoluteY 0x1234)) ∧
    decodeTableWord 24 0x12347D = some (.adc (.absoluteX 0x1234)) := by decide

theorem test_decode_logic_1 :
    decodeTableWord 16 0x3421 = some (.and (.indirectX 0x34)) ∧
    decodeTableWord 16 0x3425 = some (.and (.zeroPage 0x34)) ∧
    decodeTableWord 16 0x3429 = some (.and (.immediate 0x34)) ∧
    decodeTableWord 24 0x12342D = some (.and (.absolute 0x1234)) ∧
    decodeTableWord 16 0x3431 = some (.and (.indirectY 0x34)) ∧
    decodeTableWord 16 0x3435 = some (.and (.zeroPageX 0x34)) ∧
    decodeTableWord 24 0x123439 = some (.and (.absoluteY 0x1234)) ∧
    decodeTableWord 24 0x12343D = some (.and (.absoluteX 0x1234)) ∧
    decodeTableWord 16 0x3424 = some (.bit (.zeroPage 0x34)) ∧
    decodeTableWord 24 0x12342C = some (.bit (.absolute 0x1234)) ∧
    decodeTableWord 16 0x3441 = some (.eor (.indirectX 0x34)) ∧
    decodeTableWord 16 0x3445 = some (.eor (.zeroPage 0x34)) ∧
    decodeTableWord 16 0x3449 = some (.eor (.immediate 0x34)) ∧
    decodeTableWord 24 0x12344D = some (.eor (.absolute 0x1234)) ∧
    decodeTableWord 16 0x3451 = some (.eor (.indirectY 0x34)) ∧
    decodeTableWord 16 0x3455 = some (.eor (.zeroPageX 0x34)) ∧
    decodeTableWord 24 0x123459 = some (.eor (.absoluteY 0x1234)) ∧
    decodeTableWord 24 0x12345D = some (.eor (.absoluteX 0x1234)) ∧
    decodeTableWord 16 0x3401 = some (.ora (.indirectX 0x34)) ∧
    decodeTableWord 16 0x3405 = some (.ora (.zeroPage 0x34)) := by decide

theorem test_decode_logic_2 :
    decodeTableWord 16 0x3409 = some (.ora (.immediate 0x34)) ∧
    decodeTableWord 24 0x12340D = some (.ora (.absolute 0x1234)) ∧
    decodeTableWord 16 0x3411 = some (.ora (.indirectY 0x34)) ∧
    decodeTableWord 16 0x3415 = some (.ora (.zeroPageX 0x34)) ∧
    decodeTableWord 24 0x123419 = some (.ora (.absoluteY 0x1234)) ∧
    decodeTableWord 24 0x12341D = some (.ora (.absoluteX 0x1234)) := by decide

theorem test_decode_shift :
    decodeTableWord 16 0x3406 = some (.asl (.zeroPage 0x34)) ∧
    decodeTableWord 8 0x0A = some (.asl .accumulator) ∧
    decodeTableWord 24 0x12340E = some (.asl (.absolute 0x1234)) ∧
    decodeTableWord 16 0x3416 = some (.asl (.zeroPageX 0x34)) ∧
    decodeTableWord 24 0x12341E = some (.asl (.absoluteX 0x1234)) ∧
    decodeTableWord 16 0x3446 = some (.lsr (.zeroPage 0x34)) ∧
    decodeTableWord 8 0x4A = some (.lsr .accumulator) ∧
    decodeTableWord 24 0x12344E = some (.lsr (.absolute 0x1234)) ∧
    decodeTableWord 16 0x3456 = some (.lsr (.zeroPageX 0x34)) ∧
    decodeTableWord 24 0x12345E = some (.lsr (.absoluteX 0x1234)) ∧
    decodeTableWord 16 0x3426 = some (.rol (.zeroPage 0x34)) ∧
    decodeTableWord 8 0x2A = some (.rol .accumulator) ∧
    decodeTableWord 24 0x12342E = some (.rol (.absolute 0x1234)) ∧
    decodeTableWord 16 0x3436 = some (.rol (.zeroPageX 0x34)) ∧
    decodeTableWord 24 0x12343E = some (.rol (.absoluteX 0x1234)) ∧
    decodeTableWord 16 0x3466 = some (.ror (.zeroPage 0x34)) ∧
    decodeTableWord 8 0x6A = some (.ror .accumulator) ∧
    decodeTableWord 24 0x12346E = some (.ror (.absolute 0x1234)) ∧
    decodeTableWord 16 0x3476 = some (.ror (.zeroPageX 0x34)) ∧
    decodeTableWord 24 0x12347E = some (.ror (.absoluteX 0x1234)) := by decide

theorem test_decode_control_stack_system :
    decodeTableWord 16 0x3490 = some (.bcc (.relative 0x34)) ∧
    decodeTableWord 16 0x34B0 = some (.bcs (.relative 0x34)) ∧
    decodeTableWord 16 0x34F0 = some (.beq (.relative 0x34)) ∧
    decodeTableWord 16 0x3430 = some (.bmi (.relative 0x34)) ∧
    decodeTableWord 16 0x34D0 = some (.bne (.relative 0x34)) ∧
    decodeTableWord 16 0x3410 = some (.bpl (.relative 0x34)) ∧
    decodeTableWord 8 0x00 = some (.brk .implied) ∧
    decodeTableWord 16 0x3450 = some (.bvc (.relative 0x34)) ∧
    decodeTableWord 16 0x3470 = some (.bvs (.relative 0x34)) ∧
    decodeTableWord 24 0x123420 = some (.jsr (.absolute 0x1234)) ∧
    decodeTableWord 8 0x48 = some (.pha .implied) ∧
    decodeTableWord 8 0x08 = some (.php .implied) ∧
    decodeTableWord 8 0x68 = some (.pla .implied) ∧
    decodeTableWord 8 0x28 = some (.plp .implied) ∧
    decodeTableWord 8 0x40 = some (.rti .implied) ∧
    decodeTableWord 8 0x60 = some (.rts .implied) := by decide

theorem test_decode_flag_control :
    decodeTableWord 8 0x18 = some (.clc .implied) ∧
    decodeTableWord 8 0xD8 = some (.cld .implied) ∧
    decodeTableWord 8 0x58 = some (.cli .implied) ∧
    decodeTableWord 8 0xB8 = some (.clv .implied) ∧
    decodeTableWord 8 0x38 = some (.sec .implied) ∧
    decodeTableWord 8 0xF8 = some (.sed .implied) ∧
    decodeTableWord 8 0x78 = some (.sei .implied) := by decide

theorem test_decode_compare_subtract_1 :
    decodeTableWord 16 0x34C1 = some (.cmp (.indirectX 0x34)) ∧
    decodeTableWord 16 0x34C5 = some (.cmp (.zeroPage 0x34)) ∧
    decodeTableWord 16 0x34C9 = some (.cmp (.immediate 0x34)) ∧
    decodeTableWord 24 0x1234CD = some (.cmp (.absolute 0x1234)) ∧
    decodeTableWord 16 0x34D1 = some (.cmp (.indirectY 0x34)) ∧
    decodeTableWord 16 0x34D5 = some (.cmp (.zeroPageX 0x34)) ∧
    decodeTableWord 24 0x1234D9 = some (.cmp (.absoluteY 0x1234)) ∧
    decodeTableWord 24 0x1234DD = some (.cmp (.absoluteX 0x1234)) ∧
    decodeTableWord 16 0x34E0 = some (.cpx (.immediate 0x34)) ∧
    decodeTableWord 16 0x34E4 = some (.cpx (.zeroPage 0x34)) ∧
    decodeTableWord 24 0x1234EC = some (.cpx (.absolute 0x1234)) ∧
    decodeTableWord 16 0x34C0 = some (.cpy (.immediate 0x34)) ∧
    decodeTableWord 16 0x34C4 = some (.cpy (.zeroPage 0x34)) ∧
    decodeTableWord 24 0x1234CC = some (.cpy (.absolute 0x1234)) ∧
    decodeTableWord 16 0x34E1 = some (.sbc (.indirectX 0x34)) ∧
    decodeTableWord 16 0x34E5 = some (.sbc (.zeroPage 0x34)) ∧
    decodeTableWord 16 0x34E9 = some (.sbc (.immediate 0x34)) ∧
    decodeTableWord 24 0x1234ED = some (.sbc (.absolute 0x1234)) ∧
    decodeTableWord 16 0x34F1 = some (.sbc (.indirectY 0x34)) ∧
    decodeTableWord 16 0x34F5 = some (.sbc (.zeroPageX 0x34)) := by decide

theorem test_decode_compare_subtract_2 :
    decodeTableWord 24 0x1234F9 = some (.sbc (.absoluteY 0x1234)) ∧
    decodeTableWord 24 0x1234FD = some (.sbc (.absoluteX 0x1234)) := by decide

theorem test_decode_step_by_one :
    decodeTableWord 16 0x34C6 = some (.dec (.zeroPage 0x34)) ∧
    decodeTableWord 24 0x1234CE = some (.dec (.absolute 0x1234)) ∧
    decodeTableWord 16 0x34D6 = some (.dec (.zeroPageX 0x34)) ∧
    decodeTableWord 24 0x1234DE = some (.dec (.absoluteX 0x1234)) ∧
    decodeTableWord 8 0xCA = some (.dex .implied) ∧
    decodeTableWord 8 0x88 = some (.dey .implied) ∧
    decodeTableWord 16 0x34E6 = some (.inc (.zeroPage 0x34)) ∧
    decodeTableWord 24 0x1234EE = some (.inc (.absolute 0x1234)) ∧
    decodeTableWord 16 0x34F6 = some (.inc (.zeroPageX 0x34)) ∧
    decodeTableWord 24 0x1234FE = some (.inc (.absoluteX 0x1234)) := by decide

theorem test_decode_increment :
    decodeTableWord 8 0xE8 = some (.inx .implied) ∧
    decodeTableWord 8 0xC8 = some (.iny .implied) := by decide

theorem test_decode_jmp :
    decodeTableWord 24 0x12344C = some (.jmp (.absolute 0x1234)) ∧
    decodeTableWord 24 0x12346C = some (.jmp (.indirect 0x1234)) := by decide

theorem test_decode_load :
    decodeTableWord 16 0x34A1 = some (.lda (.indirectX 0x34)) ∧
    decodeTableWord 16 0x34A5 = some (.lda (.zeroPage 0x34)) ∧
    decodeTableWord 16 0x34A9 = some (.lda (.immediate 0x34)) ∧
    decodeTableWord 24 0x1234AD = some (.lda (.absolute 0x1234)) ∧
    decodeTableWord 16 0x34B1 = some (.lda (.indirectY 0x34)) ∧
    decodeTableWord 16 0x34B5 = some (.lda (.zeroPageX 0x34)) ∧
    decodeTableWord 24 0x1234B9 = some (.lda (.absoluteY 0x1234)) ∧
    decodeTableWord 24 0x1234BD = some (.lda (.absoluteX 0x1234)) ∧
    decodeTableWord 16 0x34A2 = some (.ldx (.immediate 0x34)) ∧
    decodeTableWord 16 0x34A6 = some (.ldx (.zeroPage 0x34)) ∧
    decodeTableWord 24 0x1234AE = some (.ldx (.absolute 0x1234)) ∧
    decodeTableWord 16 0x34B6 = some (.ldx (.zeroPageY 0x34)) ∧
    decodeTableWord 24 0x1234BE = some (.ldx (.absoluteY 0x1234)) ∧
    decodeTableWord 16 0x34A0 = some (.ldy (.immediate 0x34)) ∧
    decodeTableWord 16 0x34A4 = some (.ldy (.zeroPage 0x34)) ∧
    decodeTableWord 24 0x1234AC = some (.ldy (.absolute 0x1234)) ∧
    decodeTableWord 16 0x34B4 = some (.ldy (.zeroPageX 0x34)) ∧
    decodeTableWord 24 0x1234BC = some (.ldy (.absoluteX 0x1234)) ∧
    decodeTableWord 8 0xBA = some (.tsx .implied) ∧
    decodeTableWord 8 0x9A = some (.txs .implied) := by decide

theorem test_decode_nop :
    decodeTableWord 8 0xEA = some (.nop .implied) := by decide

theorem test_decode_store :
    decodeTableWord 16 0x3481 = some (.sta (.indirectX 0x34)) ∧
    decodeTableWord 16 0x3485 = some (.sta (.zeroPage 0x34)) ∧
    decodeTableWord 24 0x12348D = some (.sta (.absolute 0x1234)) ∧
    decodeTableWord 16 0x3491 = some (.sta (.indirectY 0x34)) ∧
    decodeTableWord 16 0x3495 = some (.sta (.zeroPageX 0x34)) ∧
    decodeTableWord 24 0x123499 = some (.sta (.absoluteY 0x1234)) ∧
    decodeTableWord 24 0x12349D = some (.sta (.absoluteX 0x1234)) ∧
    decodeTableWord 16 0x3486 = some (.stx (.zeroPage 0x34)) ∧
    decodeTableWord 24 0x12348E = some (.stx (.absolute 0x1234)) ∧
    decodeTableWord 16 0x3496 = some (.stx (.zeroPageY 0x34)) ∧
    decodeTableWord 16 0x3484 = some (.sty (.zeroPage 0x34)) ∧
    decodeTableWord 24 0x12348C = some (.sty (.absolute 0x1234)) ∧
    decodeTableWord 16 0x3494 = some (.sty (.zeroPageX 0x34)) := by decide

theorem test_decode_transfer :
    decodeTableWord 8 0xAA = some (.tax .implied) ∧
    decodeTableWord 8 0xA8 = some (.tay .implied) ∧
    decodeTableWord 8 0x8A = some (.txa .implied) ∧
    decodeTableWord 8 0x98 = some (.tya .implied) := by decide

/-- Encoding a line (R92): `ADC #$05` is `69 05`, `JMP $9000` is `4C 00 90`, `ADC ($10),Y` is `71 10`. -/
theorem test_encode_writes_low_byte_first :
    encode (.adc (.immediate 0x05)) = some [0x69, 0x05] ∧ encode (.jmp (.absolute 0x9000)) = some [0x4C, 0x00, 0x90] ∧
    encode (.adc (.indirectY 0x10)) = some [0x71, 0x10] ∧ encode (.adc .accumulator) = none := by decide

/-! ### Steps from the vectors -/

/-- The machine after construction at reset vector 0x8000 with the bytes there (95_test_vectors part 2). -/
def code (bytes : List Byte) : State :=
  { State.reset with pc := 0x8000, mem := Memory.load [] 0x8000 bytes }

/-- The same with registers preset by the host and data bytes in memory. -/
def machine (bytes : List Byte) (a x y p : Byte) (data : List (Addr × Byte)) : State :=
  { code bytes with
    a := a, x := x, y := y, p := p, mem := data.foldl (fun m c => m.write c.1.toNat c.2) (code bytes).mem }

/-- A platform that fails reads of one address. -/
def failing (a : Addr) (s : State) : State :=
  { s with params := { s.params with platform := { readFails := [⟨a, a⟩], writeFails := [⟨a, a⟩], readEffects := [] } } }

/-- A platform that changes memory after a read of one address. -/
def reacting (a : Addr) (cs : List Change) (s : State) : State :=
  { s with params := { s.params with platform := { readFails := [], writeFails := [], readEffects := [⟨⟨a, a⟩, cs⟩] } } }

/-- The next state, or the same state where there is none. -/
def after (s : State) : State :=
  match step s with
  | .next t => t
  | .fault _ | .refused _ => s

/-- `(A, P)` after an immediate ADC. -/
def adcAfter (a i p : Byte) : Byte × Byte :=
  let t := after (machine [0x69, i] a 0 0 p [])
  (t.a, t.p)

/-- Vectors V1 (with P = 0x3C), V2 (S7 corrected by 90_conflicts C1), V5 with D set, V9a, V9b, V9c. -/
theorem test_adc_flags :
    [adcAfter 0x01 0x05 0x3C, adcAfter 0xFF 0x01 0x00, adcAfter 0x7F 0x01 0x08, adcAfter 0xFF 0xFF 0x01,
      adcAfter 0xFF 0x00 0x01, adcAfter 0xFE 0x01 0x01] =
    [(0x06, 0x3C), (0x00, 0x43), (0x80, 0xC8), (0xFF, 0x80), (0x00, 0x42), (0x00, 0x43)] := by decide

/-- `(A, PC)` and the data address read last, after one step. -/
def modeAfter (s : State) : Byte × Addr × Option Access :=
  let t := after s
  (t.a, t.pc, t.accesses.getLast?)

/-- Vectors V20, V23, V24, V26, V28, V29, with their decoys. -/
theorem test_adc_modes :
    modeAfter (machine [0x75, 0xF0] 0 0x20 0 0 [(0x0010, 0x09), (0x0110, 0xEE)]) =
      (0x09, 0x8002, some (.read 0x0010)) ∧
    modeAfter (machine [0x7D, 0xFF, 0xFF] 0 0x01 0 0 [(0x0000, 0x0B)]) = (0x0B, 0x8003, some (.read 0x0000)) ∧
    modeAfter (machine [0x79, 0x80, 0xFF] 0 0 0x80 0 [(0x0000, 0x0C)]) = (0x0C, 0x8003, some (.read 0x0000)) ∧
    modeAfter (machine [0x61, 0xFE] 0 0x01 0 0 [(0xFF, 0x34), (0, 0x12), (0x1234, 0x0E), (0x0100, 0x99)]) =
      (0x0E, 0x8002, some (.read 0x1234)) ∧
    modeAfter (machine [0x71, 0xFF] 0 0 0x05 0 [(0xFF, 0x00), (0, 0x40), (0x4005, 0x10), (0x0100, 0x99)]) =
      (0x10, 0x8002, some (.read 0x4005)) ∧
    modeAfter (machine [0x71, 0x40] 0 0 0x02 0 [(0x40, 0xFF), (0x41, 0xFF), (0x0001, 0x11)]) =
      (0x11, 0x8002, some (.read 0x0001)) := by decide

/-- Vectors V10, V14, V15. -/
theorem test_jmp :
    (after (code [0x4C, 0x00, 0x90])).pc = 0x9000 ∧
    (after (machine [0x6C, 0xFF, 0x10] 0 0 0 0 [(0x10FF, 0x20), (0x1100, 0x80), (0x1000, 0x99)])).pc = 0x8020 ∧
    (after (machine [0x6C, 0xFF, 0xFF] 0 0 0 0 [(0xFFFF, 0x40), (0x0000, 0x30)])).pc = 0x3040 := by decide

/-- Vector V14's bus reads in order. -/
theorem test_jmp_indirect_reads_low_byte_first :
    (after (machine [0x6C, 0xFF, 0x10] 0 0 0 0 [(0x10FF, 0x20), (0x1100, 0x80)])).accesses =
      [.read 0x8000, .read 0x8001, .read 0x8002, .read 0x10FF, .read 0x1100] := by decide

/-- `P` after one step of a one-byte instruction. -/
def statusAfter (b p : Byte) : Byte := (after (machine [b] 0 0 0 p [])).p

/-- Vectors V31 to V37, columns `P` 0x00, 0xFF, 0xA5. -/
theorem test_flag_control :
    ([0x18, 0xD8, 0x58, 0xB8, 0x38, 0xF8, 0x78] : List Byte).map
      (fun b => [statusAfter b 0x00, statusAfter b 0xFF, statusAfter b 0xA5]) =
    [[0x00, 0xFE, 0xA4], [0x00, 0xF7, 0xA5], [0x00, 0xFB, 0xA1], [0x00, 0xBF, 0xA5], [0x01, 0xFF, 0xA5],
     [0x08, 0xFF, 0xAD], [0x04, 0xFF, 0xA5]] := by decide

/-- `(A, X, Y, P)` after one step. -/
def registersAfter (s : State) : Byte × Byte × Byte × Byte :=
  let t := after s
  (t.a, t.x, t.y, t.p)

/-- V38 for TAX (the example in full), TAY of zero, TXA, TYA with `P` 0xFF. -/
theorem test_transfers :
    registersAfter (machine [0xAA] 0x80 0x11 0x22 0x03 []) = (0x80, 0x80, 0x22, 0x81) ∧
    registersAfter (machine [0xA8] 0x00 0x11 0x55 0xFF []) = (0x00, 0x11, 0x00, 0x7F) ∧
    registersAfter (machine [0x8A] 0x00 0x7F 0x22 0xFF []) = (0x7F, 0x7F, 0x22, 0x7D) ∧
    registersAfter (machine [0x98] 0x00 0x11 0xFF 0xFF []) = (0xFF, 0x11, 0xFF, 0xFD) := by decide

/-- V39c and V39e on X and Y. -/
theorem test_increments :
    registersAfter (machine [0xE8] 0x33 0x7F 0x22 0x00 []) = (0x33, 0x80, 0x22, 0x80) ∧
    registersAfter (machine [0xC8] 0x33 0x11 0xFF 0xFF []) = (0x33, 0x11, 0x00, 0x7F) := by decide

/-- R170's example: only PC moves. -/
theorem test_nop : after (code [0xEA]) = { code [0xEA] with pc := 0x8001, accesses := [.read 0x8000] } := by
  decide

/-- V43, V44, V45, V46: the run ends, PC is past the opcode byte, A and P are unchanged. -/
theorem test_unimplemented :
    ((after (machine [0xA9, 0x05] 0x77 0 0 0 [])).run, (after (machine [0xA9, 0x05] 0x77 0 0 0 [])).a) =
      (.faulted (.unimplementedOperation .lda), 0x77) ∧
    ((after (code [0xD0, 0xFE])).run, (after (code [0xD0, 0xFE])).pc) =
      (.faulted (.unimplementedOperation .bne), 0x8001) ∧
    ((after (code [0x00])).run, (after (code [0x00])).s) = (.faulted (.unimplementedOperation .brk), 0xFF) ∧
    ((after (code [0x8D, 0x00, 0x20])).run, (after (code [0x8D, 0x00, 0x20])).byteAt 0x2000) =
      (.faulted (.unimplementedOperation .sta), 0x00) := by decide

/-- V42, and V47, V48, V49 on a platform that fails one address. -/
theorem test_faults :
    ((after (code [0x02])).run, (after (code [0x02])).pc) = (.faulted (.decodeFailure 0x02), 0x8000) ∧
    ((after (failing 0x4000 (code [0x6D, 0x00, 0x40]))).run, (after (failing 0x4000 (code [0x6D, 0x00, 0x40]))).pc) =
      (.faulted (.busFailure 0x4000), 0x8003) ∧
    ((after (failing 0x0021 (code [0x61, 0x20]))).run, (after (failing 0x0021 (code [0x61, 0x20]))).pc) =
      (.faulted (.busFailure 0x0021), 0x8002) ∧
    ((after (failing 0x8001 (code [0x69, 0x05]))).run, (after (failing 0x8001 (code [0x69, 0x05]))).pc) =
      (.faulted (.busFailure 0x8001), 0x8001) := by decide

/-- V30's last sentence: under a table with the row (ADC, Accumulator) the step ends `InvalidAddressing`. -/
def oddTable (s : State) : State :=
  { s with params := { s.params with optab := .replacement [⟨0x0B, .adc, .accumulator, 2⟩] } }

theorem test_replacement_table :
    ((after (oddTable (code [0x0B]))).run, (after (oddTable (code [0x0B]))).pc) =
      (.faulted (.invalidAddressing .accumulator .byte), 0x8001) ∧
    (after (oddTable (code [0xEA]))).run = .faulted (.decodeFailure 0xEA) := by decide

/-- V50, V51, V54. -/
theorem test_halting :
    (after { State.reset with pc := 0xFFFA }).run = .halted ∧
    (after { State.reset with pc := 0xFFF9, mem := [(0xFFF9, 0xEA)] }).run = .running ∧
    (after { State.reset with
      pc := 0xFFFA, mem := [(0xFFFA, 0xEA)],
      params := { Params.standard with haltEnable := false } }).pc = 0xFFFB := by decide

/-- From Halted and Faulted there is no step (R9). -/
theorem test_no_step :
    step { State.reset with run := .halted } = .fault .halted ∧
    step { State.reset with run := .faulted (.busFailure 0) } = .fault (.ended (.busFailure 0)) := ⟨rfl, rfl⟩

/-- P6's construction: reset vector 0xFFF8. -/
theorem test_construction :
    (construct ⟨⟨1, 2, 3, 4, 5, 6⟩, ⟨7, 8, 9⟩⟩ ⟨0x11, 0x22, 0x33, 0x44⟩ Params.standard
      [(0xFFFC, 0xF8), (0xFFFD, 0xFF)] 0).pc = 0xFFF8 ∧
    (construct ⟨⟨1, 2, 3, 4, 5, 6⟩, ⟨7, 8, 9⟩⟩ ⟨0x11, 0x22, 0x33, 0x44⟩ Params.standard [] 0).x = 0x22 := by decide

/-- A placed word runs as the first instruction after reset. -/
theorem test_placed_word_runs :
    (after (State.reset.withFetchWord 8 0xE8)).x = 0x01 ∧
    (after (State.reset.withFetchWord 24 0x90004C)).pc = 0x9000 ∧
    (after (State.reset.withFetchWord 8 0xAA69)).a = 0x00 := by decide

/-- R62 and R65 by hand: a data address that a read clears; a pointer's high byte changed by the read of its low
byte (JMP Indirect); an operand byte changed by the opcode fetch; a side effect at an address nothing reads. -/
theorem test_read_side_effects :
    (let t := after (reacting 0x2002 [⟨0x2002, some 0x00⟩] (machine [0x6D, 0x02, 0x20] 0 0 0 0 [(0x2002, 0x80)]))
     (t.a, t.byteAt 0x2002)) = (0x80, 0x00) ∧
    (after (reacting 0x10FF [⟨0x1100, some 0x90⟩]
      (machine [0x6C, 0xFF, 0x10] 0 0 0 0 [(0x10FF, 0x20), (0x1100, 0x80)]))).pc = 0x9020 ∧
    (after (reacting 0x8000 [⟨0x8001, some 0x07⟩] (code [0x69, 0x05]))).a = 0x07 ∧
    (after (reacting 0x3000 [⟨0x8001, some 0x07⟩] (code [0x69, 0x05]))).a = 0x05 := by decide

/-- An open byte is the free value of its number, and the next one takes the next number (log 26). -/
theorem test_open_bytes_are_free_values :
    (State.reset.platformChanges [⟨0x0010, none⟩, ⟨0x0011, some 0x05⟩, ⟨0x0012, none⟩]).freeBytes = 2 ∧
    (State.reset.mem.applyChanges [⟨0x0010, none⟩] 7).1 = Memory.write [] 0x0010 (Config.platformByte 7) :=
  ⟨rfl, rfl⟩

/-- A restart goes on from the count of free bytes reached: after one open byte the next has number 1 (log 26). -/
theorem test_restart_repeats_no_free_byte :
    ((State.reset.platformChanges [⟨0x0010, none⟩]).restart ⟨⟨1, 2, 3, 4, 5, 6⟩, ⟨7, 8, 9⟩⟩ ⟨0, 0, 0, 0⟩).freeBytes = 1 :=
  rfl

/-! ### The hypotheses of the statements are met -/

theorem witness_EncodedInstructionsDecodeBack : (Instr.adc (.absoluteX 0xFFFF)).wellFormed = true := by decide

theorem witness_DecodedBytesEncodeBack :
    decode .standard [0x6C, 0xFF, 0xFF, 0x02] = .ok (.jmp (.indirect 0xFFFF), [0x02]) := by decide

theorem witness_BusWriteStoresExactlyOneByte :
    State.reset.mem.wf = true ∧ (failing 0xFFFF State.reset).writeFails 0xFFFF = true ∧
    (failing 0xFFFF State.reset).writeFails 0x0000 = false := by decide

theorem witness_PlainAndIndexedXAddresses :
    State.reset.readable [0x00#8 ++ (0xFF + State.reset.x), 0x00#8 ++ (0xFF + State.reset.x + 1)] = true := by decide

theorem witness_WrappingAndIndirectAddresses :
    State.reset.readable [0xFFFF, 0xFFFF + 1] = true ∧
    State.reset.readable [0x00#8 ++ 0xFF#8, 0x00#8 ++ (0xFF#8 + 1)] = true := by decide

theorem witness_ZeroPageNeverEscapes :
    State.reset.resolveAddress (.zeroPageX 0xFF) = .ok 0x00FF State.reset ∧
    State.reset.resolveAddress (.zeroPageY 0xFF) = .ok 0x00FF State.reset := by decide

/-- The pointer clause, at the pointer whose high byte wraps, read and failing. -/
theorem witness_ZeroPageNeverEscapes_pointers :
    State.reset.resolveAddress (.indirectY 0xFF) = .ok 0x0000 (State.reset.afterReads [0x00FF, 0x0000]) ∧
    State.reset.resolveAddress (.indirectX 0xFF) = .ok 0x0000 (State.reset.afterReads [0x00FF, 0x0000]) ∧
    (failing 0x0000 State.reset).resolveAddress (.indirectY 0xFF) =
      .raised (((failing 0x0000 State.reset).afterReads [0x00FF]).failedRead 0x0000) := by decide

/-- Lengths 1 and 3, the longest at the last address below the boundary; the last with an operand byte that the
opcode fetch changes. -/
theorem witness_StepRunsDecodedInstruction :
    (code [0xEA]).run = .running ∧ (code [0xEA]).atBoundary = false ∧
    decode (code [0xEA]).params.optab ((code [0xEA]).beginStep.bytesRead (addressesFrom 1 0x8000)) =
      .ok (.nop .implied, []) ∧
    (code [0xEA]).readable (addressesFrom 1 0x8000) = true := by decide

theorem witness_StepRunsDecodedInstruction_three_bytes :
    let s : State := { State.reset with pc := 0xFFF9, mem := [(0xFFF9, 0x6D), (0xFFFA, 0x34), (0xFFFB, 0x12)] }
    s.run = .running ∧ s.atBoundary = false ∧
    decode s.params.optab (s.beginStep.bytesRead (addressesFrom 3 s.pc)) = .ok (.adc (.absolute 0x1234), []) ∧
    s.readable (addressesFrom 3 s.pc) = true := by decide

theorem witness_StepRunsDecodedInstruction_side_effect :
    let s := reacting 0x8000 [⟨0x8001, some 0x07⟩] (code [0x69, 0x05])
    decode s.params.optab (s.beginStep.bytesRead (addressesFrom 2 s.pc)) = .ok (.adc (.immediate 0x07), []) ∧
    s.readable (addressesFrom 2 s.pc) = true := by decide

theorem witness_BoundaryStepHalts :
    let s : State := { State.reset with pc := 0xFFFA }
    s.run = .running ∧ s.params.haltEnable = true ∧ s.params.haltBoundary.toNat ≤ s.pc.toNat := by decide

theorem witness_HaltedOnlyAtTheBoundary :
    State.reset.run = .running ∧ step (code [0xEA]) = .next (after (code [0xEA])) ∧
    (after (code [0xEA])).run = .running := ⟨rfl, rfl, by decide⟩

theorem witness_RunningCoreAlwaysSteps :
    State.reset.run = .running ∧ State.reset.halt.run = .halted ∧
    (State.reset.raise (.busFailure 0)).run = .faulted (.busFailure 0) := by decide

theorem witness_FailedFetchChangesNoRegister :
    (failing 0x8000 (code [0xEA])).run = .running ∧ (failing 0x8000 (code [0xEA])).atBoundary = false ∧
    (failing 0x8000 (code [0xEA])).readFails 0x8000 = true ∧ (code [0xEA]).readFails 0x8000 = false := by decide

theorem witness_UnknownOpcodeLeavesPcAtTheByte :
    (oddTable (code [0xEA])).run = .running ∧ (oddTable (code [0xEA])).atBoundary = false ∧
    (oddTable (code [0xEA])).readFails 0x8000 = false ∧
    ∀ r ∈ (oddTable (code [0xEA])).params.optab.rows, r.opcode ≠ (oddTable (code [0xEA])).byteAt 0x8000 := by decide

/-- The first and the second operand byte. -/
theorem witness_OperandReadFailureStopsPastTheOpcode :
    let s := failing 0x8001 (code [0x6D, 0x34, 0x12])
    let u := failing 0x8002 (code [0x6D, 0x34, 0x12])
    s.run = .running ∧ s.atBoundary = false ∧
    s.params.optab.lookup (s.byteAt s.pc) = some ⟨0x6D, .adc, .absolute, 4⟩ ∧
    s.readable (addressesFrom 1 s.pc) = true ∧ s.readFails (s.pc + 1 + BitVec.ofNat 16 0) = true ∧
    u.readable (addressesFrom 2 u.pc) = true ∧ u.readFails (u.pc + 1 + BitVec.ofNat 16 1) = true := by decide

theorem witness_UnimplementedStepEndsTheRun :
    let s := code [0x8D, 0x00, 0x20]
    s.run = .running ∧ s.atBoundary = false ∧
    s.params.optab.lookup (s.byteAt s.pc) = some ⟨0x8D, .sta, .absolute, 4⟩ ∧
    Operation.sta.implemented = false ∧ s.readable (addressesFrom 3 s.pc) = true := by decide

theorem witness_AccessesOfOneStep :
    (code [0xEA]).run = .running ∧ step (code [0xEA]) = .next (after (code [0xEA])) ∧
    (after (code [0xEA])).run ≠ .halted ∧ (code [0xEA]).params.optab = .standard ∧
    (after { State.reset with pc := 0xFFFA }).run = .halted := ⟨rfl, rfl, by decide, rfl, by decide⟩

theorem witness_PlacedWordIsFetched :
    (code [0xEA]).mem.wf = true ∧ (code [0xEA]).params.platform.readEffects = [] ∧
    (code [0xEA]).readable (addressesFrom 3 0x8000) = true := by decide

/-- An immediate and a memory form; every form that gives a byte has one such state. -/
theorem witness_AdcAddsWithSpecFlags :
    inputByte (.immediate 0xFF) State.reset = some 0xFF ∧ State.reset.readable (inputReads (.immediate 0xFF) State.reset) = true ∧
    inputByte (.indirectY 0xFF) State.reset = some 0x00 ∧
    State.reset.readable (inputReads (.indirectY 0xFF) State.reset) = true := by decide

theorem witness_JmpSetsPcToTheResolvedAddress :
    effectiveAddress (.absolute 0xFFFA) State.reset = some 0xFFFA ∧
    State.reset.readable (pointerReads (.absolute 0xFFFA) State.reset) = true ∧
    effectiveAddress (.indirect 0xFFFF) State.reset = some 0x0000 ∧
    State.reset.readable (pointerReads (.indirect 0xFFFF) State.reset) = true := by decide

theorem witness_FlagOperationsWriteTheirOneFlag :
    exec (.sei .implied) State.reset = .next { State.reset with p := 0x04 } := by rfl

theorem witness_NopMovesOnlyPc :
    (code [0xEA]).run = .running ∧ (code [0xEA]).atBoundary = false ∧ (code [0xEA]).params.optab = .standard ∧
    (code [0xEA]).byteAt 0x8000 = 0xEA ∧ (code [0xEA]).readFails 0x8000 = false := by decide

/-- The data read of ADC, and the second pointer byte of JMP. -/
theorem witness_ReadFailureTrapsBeforeAnyWrite :
    let s := failing 0x4000 State.reset
    let u := failing 0x1100 State.reset
    s.readable [] = true ∧ s.readFails 0x4000 = true ∧
    inputReads (.absolute 0x4000) s = [] ++ 0x4000 :: [] ∧
    u.readable [0x10FF] = true ∧ u.readFails 0x1100 = true ∧
    pointerReads (.indirect 0x10FF) u = [0x10FF] ++ 0x1100 :: [] := by decide

theorem witness_CarryIsWrongOnlyAtFFWithCarryIn :
    adcCarry 0xFF (adcSum 0xFF 0xFF true) = false ∧ adcCarry 0x01 (adcSum 0xFE 0x01 true) = true := by decide

theorem witness_OnlyCarryFlagIsRead :
    getFlag .carry 0xFE = (code [0xEA]).flag .carry ∧ step (code [0xEA]) = .next (after (code [0xEA])) ∧
    step (code [0xEA]).halt = .fault .halted := ⟨by decide, rfl, rfl⟩

theorem witness_StepKeepsStackVectorsMemoryAndBreakBits :
    step (code [0xEA]) = .next (after (code [0xEA])) ∧ (code [0xEA]).params.platform.readEffects = [] ∧
    step (failing 0x8001 (code [0x69, 0x05])) = .next (after (failing 0x8001 (code [0x69, 0x05]))) ∧
    (after (failing 0x8001 (code [0x69, 0x05]))).run = .faulted (.busFailure 0x8001) :=
  ⟨rfl, rfl, rfl, by decide⟩

/-- One faulting step for each kind; BusFailure at the opcode, at the last operand byte, at the second pointer byte
and at the data read. -/
theorem witness_FaultedStepChangesOnlyPc :
    [code [0x02], code [0xA9, 0x05], oddTable (code [0x0B]), failing 0x8000 (code [0xEA]),
      failing 0x8002 (code [0x6D, 0x05, 0x40]), failing 0x1100 (code [0x6C, 0xFF, 0x10]),
      failing 0x4000 (code [0x6D, 0x00, 0x40])].map
        (fun s => (s.run, (after s).run, (after s).pc)) =
    [(.running, .faulted (.decodeFailure 0x02), 0x8000),
     (.running, .faulted (.unimplementedOperation .lda), 0x8001),
     (.running, .faulted (.invalidAddressing .accumulator .byte), 0x8001),
     (.running, .faulted (.busFailure 0x8000), 0x8000), (.running, .faulted (.busFailure 0x8002), 0x8001),
     (.running, .faulted (.busFailure 0x1100), 0x8003), (.running, .faulted (.busFailure 0x4000), 0x8003)] := by decide

/-- The steps of each kind are next states, one of each clause. -/
theorem witness_FaultedStepChangesOnlyPc_steps :
    step (code [0x02]) = .next (after (code [0x02])) ∧
    step (failing 0x1100 (code [0x6C, 0xFF, 0x10])) = .next (after (failing 0x1100 (code [0x6C, 0xFF, 0x10]))) :=
  ⟨rfl, rfl⟩

theorem witness_PcMovesInTwoWays :
    step (code [0x4C, 0x00, 0x90]) = .next (after (code [0x4C, 0x00, 0x90])) ∧
    (after (code [0x4C, 0x00, 0x90])).run = .running ∧ step (code [0xEA]) = .next (after (code [0xEA])) ∧
    (after (code [0xEA])).run = .running := ⟨rfl, by decide, rfl, by decide⟩

theorem witness_ImplementedInstructionsNeverFaultOnFlatMemory :
    let s := code [0x71, 0xFF]
    s.run = .running ∧ s.atBoundary = false ∧ s.params.optab = .standard ∧ s.params.platform.readFails = [] ∧
    s.params.optab.lookup (s.byteAt s.pc) = some ⟨0x71, .adc, .indirectY, 5⟩ ∧ Operation.adc.implemented = true := by
  decide

theorem witness_EveryStepKeepsTheInvariant :
    (code [0xEA]).Inv ∧ step (code [0xEA]) = .next (after (code [0xEA])) :=
  ⟨⟨by decide, rfl, rfl, rfl, by decide, by decide⟩, rfl⟩

theorem witness_ConstructionLatchesTheVectors :
    ∀ a ∈ [(0xFFFA : Addr), 0xFFFB, 0xFFFC, 0xFFFD, 0xFFFE, 0xFFFF],
      Params.standard.platform.failsRead a = false := fun _ _ => rfl

/-- The `n` reads before the failing one, then the failing one; the first and the last vector byte, and the two
where a latch begins. -/
theorem witness_FailedConstructionEndsTheRun :
    ([0, 2, 4, 5] : List Nat).map (fun n =>
      let fails := (failing (0xFFFA + BitVec.ofNat 16 n) State.reset).params.platform.failsRead
      ((addressesFrom n 0xFFFA).map fails, fails (0xFFFA + BitVec.ofNat 16 n))) =
    [([], true), ([false, false], true), ([false, false, false, false], true),
     ([false, false, false, false, false], true)] := by decide

/-- A read whose side effects list one address with a byte and one without. -/
theorem witness_AnsweredReadThenThePlatformActs :
    let s := reacting 0x2002 [⟨0x2002, some 0x00⟩, ⟨0x2007, none⟩] (code [0xEA])
    s.mem.wf = true ∧ s.readFails 0x2002 = false ∧
    s.params.platform.changesOnRead 0x2002 = [⟨0x2002, some 0x00⟩] ++ ⟨0x2007, none⟩ :: [] ∧
    s.params.platform.changesOnRead 0x2002 = [] ++ ⟨0x2002, some 0x00⟩ :: [⟨0x2007, none⟩] ∧
    (0x2007 : Addr) ≠ 0x2002 ∧ s.params.platform.changesOnRead 0x2003 = [] := by decide

theorem witness_FlatPlatformReadsHaveNoSideEffect :
    (code [0xEA]).params.platform.readEffects = [] ∧ (code [0xEA]).readFails 0x8000 = false := by decide

theorem witness_PlatformActsOnMemoryAlone :
    (code [0xEA]).Inv ∧ (∀ c ∈ [(⟨0x2002, some 0x01⟩ : Change)], c.addr ≠ 0x2003) :=
  ⟨⟨by decide, rfl, rfl, rfl, by decide, by decide⟩, by simp⟩

end Sys2Proof.Tests
end

section
/-! PROOFS. A step is total on a running core (spec/00_scope.md R9, spec/40_step_and_addressing.md R100 to R108). -/

namespace Sys2Proof.Machine

theorem step_of_noStep {s : State} {f : Fault} (h : s.fetch = .noStep f) : step s = .fault f := by
  simp only [step, h]

theorem step_of_over {s t : State} (h : s.fetch = .over t) : step s = .next t := by
  simp only [step, h]

theorem step_of_ready {s t : State} {i : Instr} (h : s.fetch = .ready i t) : step s = exec i t := by
  simp only [step, h]

/-- No meaning of an instruction answers a fault of the host interface or a refusal. -/
theorem exec_answers_next (i : Instr) (s : State) : ∃ t, exec i s = .next t := by
  obtain ⟨_, _, h⟩ | ⟨_, _, _, h⟩ | ⟨_, _, _, _, _, h⟩ := exec_effect i s
  · exact ⟨_, h⟩
  · exact ⟨_, h⟩
  · exact ⟨_, h⟩

/-- R100 to R108: halted, ended before dispatch by a fault, or dispatched, a running core has a next state. -/
theorem step_answers_next_of_running (s : State) (hr : s.run = .running) : ∃ t, step s = .next t := by
  obtain ⟨h, _⟩ | ⟨_, h, _⟩ | ⟨_, _, hf⟩ | ⟨_, _, _, hf⟩ | ⟨_, _, _, _, hf⟩ | ⟨_, _, _, r, _, hf⟩ := s.fetch_cases
  · simp [hr] at h
  · simp [hr] at h
  · exact ⟨_, step_of_over hf⟩
  · exact ⟨_, step_of_over hf⟩
  · exact ⟨_, step_of_over hf⟩
  · obtain ⟨t, _, ho⟩ | ⟨ops, t, _, ho⟩ := (s.beginStep.afterRead s.pc).readOperands_cases r
    · exact ⟨t, step_of_over (hf.trans ho)⟩
    · rw [step_of_ready (hf.trans ho)]
      exact exec_answers_next (r.instr ops) t

theorem step_of_halted (s : State) (h : s.run = .halted) : step s = .fault .halted :=
  step_of_noStep (by simp only [State.fetch, h])

theorem step_of_faulted (s : State) (k : FaultKind) (h : s.run = .faulted k) : step s = .fault (.ended k) :=
  step_of_noStep (by simp only [State.fetch, h])

/-- Settles O15: the part before dispatch always ends or dispatches, and every meaning answers a next state. -/
theorem runningCoreAlwaysSteps : Obligations.RunningCoreAlwaysSteps := fun s =>
  ⟨step_answers_next_of_running s, step_of_halted s, step_of_faulted s⟩

end Sys2Proof.Machine
end

section
/-! PROOFS. What the platform's changes do to memory, in order, and that nothing else changes
(spec/00_scope.md R3, R12, spec/20_memory.md R56, R60, R62, R65). -/

namespace Sys2Proof.Machine

/-- One change: the given byte or the next free value is written, and an open byte takes one free value (log 26). -/
theorem Memory.applyChanges_cons (c : Change) (rest : List Change) (m : Memory) (n : Nat) :
    m.applyChanges (c :: rest) n =
      (m.write c.addr.toNat (c.byte.getD (Config.platformByte n))).applyChanges rest
        (n + if c.byte.isNone then 1 else 0) := by
  cases h : c.byte <;> simp [Memory.applyChanges, h]

theorem Memory.applyChanges_append (cs ds : List Change) (m : Memory) (n : Nat) :
    m.applyChanges (cs ++ ds) n = (m.applyChanges cs n).1.applyChanges ds (m.applyChanges cs n).2 := by
  induction cs generalizing m n with
  | nil => rfl
  | cons c rest ih => simp only [List.cons_append, Memory.applyChanges_cons, ih]

theorem Memory.applyChanges_count (cs : List Change) (m : Memory) (n : Nat) :
    (m.applyChanges cs n).2 = n + cs.countP (·.byte.isNone) := by
  induction cs generalizing m n with
  | nil => rfl
  | cons c rest ih => rw [Memory.applyChanges_cons, ih, List.countP_cons]; omega

/-- The last change listed for an address decides what it reads as: those before it only fix the number of the
free value, those after it are elsewhere. -/
theorem Memory.applyChanges_last (before after : List Change) (c : Change) (m : Memory) (n : Nat)
    (hm : m.wf = true) (hlast : ∀ d ∈ after, d.addr ≠ c.addr) :
    (m.applyChanges (before ++ c :: after) n).1.read c.addr.toNat =
      c.byte.getD (Config.platformByte (n + before.countP (·.byte.isNone))) := by
  rw [Memory.applyChanges_append, Memory.applyChanges_cons, Memory.applyChanges_other _ _ _ _ hlast,
    Memory.applyChanges_count]
  exact Memory.read_write_same _ 0 _ _ (Memory.applyChanges_wf before m n hm)

theorem State.platformChanges_eq (cs : List Change) (s : State) :
    s.platformChanges cs = { s with
      mem := (s.platformChanges cs).mem, freeBytes := (s.platformChanges cs).freeBytes } := rfl

theorem State.platformChanges_byteAt_other (cs : List Change) (s : State) (b : Addr)
    (h : ∀ c ∈ cs, c.addr ≠ b) : (s.platformChanges cs).byteAt b = s.byteAt b :=
  Memory.applyChanges_other cs s.mem s.freeBytes b h

/-- Of the invariant only the canonical form speaks of memory; the rest is about fields the platform keeps. -/
theorem State.platformChanges_inv (cs : List Change) (s : State) (h : s.Inv) : (s.platformChanges cs).Inv where
  memory := Memory.applyChanges_wf cs s.mem s.freeBytes h.memory
  stack := h.stack
  table := h.table
  addressing := h.addressing
  reads := h.reads
  bounded := h.bounded

/-- R62: a read's side effects are the platform's changes, made in the state that has recorded the access. -/
theorem State.afterRead_byteAt_other (a b : Addr) (s : State)
    (h : ∀ c ∈ s.params.platform.changesOnRead a, c.addr ≠ b) : (s.afterRead a).byteAt b = s.byteAt b :=
  State.platformChanges_byteAt_other _ (s.logAccess (.read a)) b h

theorem State.afterRead_byteAt_last (a : Addr) (s : State) (before after : List Change) (c : Change)
    (hm : s.mem.wf = true) (hc : s.params.platform.changesOnRead a = before ++ c :: after)
    (hlast : ∀ d ∈ after, d.addr ≠ c.addr) :
    (s.afterRead a).byteAt c.addr =
      c.byte.getD (Config.platformByte (s.freeBytes + before.countP (·.byte.isNone))) := by
  rw [State.byteAt, State.afterRead_mem, hc]
  exact Memory.applyChanges_last before after c s.mem s.freeBytes hm hlast

/-- Settles O47: the read answers and leaves `State.afterRead`, in which the last change listed for an address
decides its byte, and every unlisted address keeps its own. -/
theorem answeredReadThenThePlatformActs : Obligations.AnsweredReadThenThePlatformActs := by
  intro a s hm hread
  refine ⟨s.afterRead a, State.busRead_ok a s hread, rfl, State.afterReads_wf s [a] hm,
    fun b => State.afterRead_byteAt_other a b s, fun before after c hc hlast => ?_⟩
  rw [State.afterRead_byteAt_last a s before after c hm hc hlast]
  cases c.byte <;> rfl

/-- Settles O49: the platform writes memory and the count of free values, and a change keeps the canonical form. -/
theorem platformActsOnMemoryAlone : Obligations.PlatformActsOnMemoryAlone := fun s cs =>
  ⟨⟨_, _, State.platformChanges_eq cs s⟩, State.platformChanges_byteAt_other cs s, State.platformChanges_inv cs s⟩

end Sys2Proof.Machine
end

section
/-! PROOFS. The status byte is its eight flags, the break primitives, and the state after reset
(spec/10_state.md R26 to R29, R35, spec/70_reset_and_hazards.md R280). -/

namespace Sys2Proof.Machine

/-- The status byte with these eight flags, bit 7 to bit 0 (R26). -/
def statusByte (n v bl br d i z c : Bool) : Byte :=
  BitVec.ofBool n ++ BitVec.ofBool v ++ BitVec.ofBool bl ++ BitVec.ofBool br ++
    BitVec.ofBool d ++ BitVec.ofBool i ++ BitVec.ofBool z ++ BitVec.ofBool c

theorem getFlag_statusByte (f : Flag) (n v bl br d i z c : Bool) :
    getFlag f (statusByte n v bl br d i z c) = match f with
      | .negative => n | .overflow => v | .breakLeft => bl | .breakRight => br
      | .decimal => d | .interruptDisable => i | .zero => z | .carry => c := by
  cases f <;> simp only [getFlag, flagBit, statusByte, BitVec.getLsbD_append] <;> simp

theorem statusByte_getFlag (p : Byte) :
    statusByte (getFlag .negative p) (getFlag .overflow p) (getFlag .breakLeft p) (getFlag .breakRight p)
      (getFlag .decimal p) (getFlag .interruptDisable p) (getFlag .zero p) (getFlag .carry p) = p :=
  status_ext _ _ fun f => by cases f <;> exact getFlag_statusByte _ _ _ _ _ _ _ _ _

/-- Settles O32: a byte is determined by its flags, so it is the byte made of them; the masks are one bit each. -/
theorem statusByteIsItsEightFlags : Obligations.StatusByteIsItsEightFlags := by
  refine ⟨fun p => (statusByte_getFlag p).symm, fun n v bl br d i z c => ?_, fun f => by cases f <;> rfl⟩
  have h f := getFlag_statusByte f n v bl br d i z c
  exact ⟨h .negative, h .overflow, h .breakLeft, h .breakRight, h .decimal, h .interruptDisable, h .zero, h .carry⟩

theorem State.flag_setFlag (f g : Flag) (v : Bool) (s : State) :
    (s.setFlag f v).flag g = if g = f then v else s.flag g :=
  getFlag_putFlag f g v s.p

/-- R28, R29: two flag writes, the second of the right break bit. -/
theorem State.flag_breakWrites (g : Flag) (l r : Bool) (s : State) :
    ((s.setFlag .breakLeft l).setFlag .breakRight r).flag g =
      if g = .breakRight then r else if g = .breakLeft then l else s.flag g := by
  simp only [State.flag_setFlag]

/-- Settles O33: each primitive is two flag writes, and a flag write changes its own flag of `P` only. -/
theorem breakPrimitivesWriteBothBreakBits : Obligations.BreakPrimitivesWriteBothBreakBits := by
  intro s
  have hset g := State.flag_breakWrites g true true s
  have hclear g := State.flag_breakWrites g true false s
  exact ⟨⟨hset .breakLeft, hset .breakRight, fun f hl hr => by simp [State.setBreakInterrupt, hset, hl, hr], rfl⟩,
    ⟨hclear .breakLeft, hclear .breakRight, fun f hl hr => by simp [State.setBreakInstruction, hclear, hl, hr], rfl⟩⟩

/-- Settles O43: empty memory is canonical, and construction made six reads. -/
theorem resetMeetsTheInvariant : Obligations.ResetMeetsTheInvariant where
  memory := rfl
  stack := rfl
  table := rfl
  addressing := rfl
  reads := rfl
  bounded := Nat.le_refl 6

/-- Over empty memory, on a platform without failing addresses and read side effects, a 16-bit read answers 0 and
records its two accesses. -/
theorem State.busRead16_emptyMemory (a : Addr) (s : State) (hp : s.params = Params.standard) (hm : s.mem = []) :
    s.busRead16 a = .ok 0x0000 ((s.logAccess (.read a)).logAccess (.read (a + 1))) := by
  have hflat : s.params.platform.readEffects = [] := by rw [hp]; rfl
  have hread b : s.readFails b = false := by rw [State.readFails, hp]; rfl
  simp [State.busRead16_ok a s (hread _) (hread _), State.wordRead, State.byteAt, hm,
    State.afterRead_flat _ _ hflat, State.afterRead_flat (s.logAccess _) _ hflat, Config.unlistedByte]

/-- Settles O46: each vector reads 0 from empty memory, and every leftover value is overwritten. -/
theorem resetIsConstructionOverEmptyMemory : Obligations.ResetIsConstructionOverEmptyMemory := by
  intro u
  simp [construct, State.latchVectors, unconstructed, State.logAccess, Attempt.andThen, State.busRead16_emptyMemory, State.reset,
    Config.vecNmi, Config.vecReset, Config.vecIrq]

end Sys2Proof.Machine
end

section
/-! PROOFS. Every flag but Carry is inert: each piece of a step takes runs that differ in `P` only to runs that
differ in `P` only (spec/10_state.md R27, spec/60_exceptions.md R263). -/

namespace Sys2Proof.Machine

/-- The two runs differ in `P` only, and agree on the flags of `F`. -/
inductive AgreeOn (F : Flag → Prop) (s : State) : State → Prop
  | withP (q : Byte) (h : ∀ f, F f → getFlag f q = s.flag f) : AgreeOn F s (s.setP q)

/-- Both pieces answer the same value, or both end the step, in runs that agree. -/
inductive AgreeAttempt (F : Flag → Prop) {α : Type} : Attempt α → Attempt α → Prop
  | ok {s t : State} (v : α) (h : AgreeOn F s t) : AgreeAttempt F (.ok v s) (.ok v t)
  | raised {s t : State} (h : AgreeOn F s t) : AgreeAttempt F (.raised s) (.raised t)

/-- The parts before dispatch give the same in runs that agree. -/
inductive AgreeFetched (F : Flag → Prop) : Fetched → Fetched → Prop
  | noStep (f : Fault) : AgreeFetched F (.noStep f) (.noStep f)
  | ended {s t : State} (h : AgreeOn F s t) : AgreeFetched F (.over s) (.over t)
  | ready {s t : State} (i : Instr) (h : AgreeOn F s t) : AgreeFetched F (.ready i s) (.ready i t)

/-- The answers are next states that agree, or the same host fault. -/
inductive AgreeAnswer (F : Flag → Prop) : Answer → Answer → Prop
  | next {s t : State} (h : AgreeOn F s t) : AgreeAnswer F (.next s) (.next t)
  | fault (f : Fault) : AgreeAnswer F (.fault f) (.fault f)

variable {F : Flag → Prop} {s t : State}

/-! ### Updates of the state -/

/-- A function of the state that does not look at `P` gives the same in both runs. -/
theorem AgreeOn.same {β : Type} (h : AgreeOn F s t) (g : State → β)
    (hg : ∀ s q, g (s.setP q) = g s := by intros; rfl) : g t = g s := by
  obtain ⟨q, _⟩ := h
  exact hg s q

/-- An update that neither looks at `P` nor writes it keeps the agreement. -/
theorem AgreeOn.update (h : AgreeOn F s t) (g : State → State)
    (hg : ∀ s q, g (s.setP q) = (g s).setP q := by intros; rfl) (hp : ∀ s, (g s).p = s.p := by intros; rfl) :
    AgreeOn F (g s) (g t) := by
  obtain ⟨q, hq⟩ := h
  rw [hg]
  exact .withP q fun f hf => by rw [hq f hf, State.flag, State.flag, hp]

theorem AgreeOn.flag (h : AgreeOn F s t) {f : Flag} (hf : F f) : t.flag f = s.flag f := by
  obtain ⟨q, hq⟩ := h
  exact hq f hf

/-- Writing one flag alike keeps every agreement. -/
theorem AgreeOn.setFlag (h : AgreeOn F s t) (f : Flag) (v : Bool) : AgreeOn F (s.setFlag f v) (t.setFlag f v) := by
  obtain ⟨q, hq⟩ := h
  refine .withP (putFlag f v q) fun g hg => ?_
  simp only [State.flag_setFlag, getFlag_putFlag, hq g hg]

/-- Zero and Negative of a byte that does not depend on `P` are two flag writes. -/
theorem AgreeOn.setZeroNegative (h : AgreeOn F s t) (g : State → Byte)
    (hg : ∀ s q, g (s.setP q) = g s := by intros; rfl) :
    AgreeOn F (s.setZeroNegative (g s)) (t.setZeroNegative (g t)) := by
  rw [h.same g hg]
  exact (h.setFlag .zero (g s == 0)).setFlag .negative (g s).msb

/-- ADC reads one flag, Carry, and writes four alike. -/
theorem AgreeOn.addWithCarry (h : AgreeOn F s t) (hc : F .carry) (i : Byte) :
    AgreeOn F (s.addWithCarry i) (t.addWithCarry i) := by
  simp only [State.addWithCarry, h.same State.a, h.flag hc]
  let r := adcSum s.a i (s.flag .carry)
  have hcv := (h.setFlag .carry (adcCarry i r)).setFlag .overflow (adcOverflow s.a r)
  exact (hcv.setZeroNegative fun _ => r).update (State.setA r)

/-! ### The bus and the resolver -/

theorem AgreeAttempt.andThen {α β : Type} {r r' : Attempt α} (h : AgreeAttempt F r r')
    (f : α → State → Attempt β) (f' : α → State → Attempt β)
    (hf : ∀ v s t, AgreeOn F s t → AgreeAttempt F (f v s) (f' v t)) :
    AgreeAttempt F (r.andThen f) (r'.andThen f') := by
  cases h with
  | ok v h => exact hf v _ _ h
  | raised h => exact .raised h

/-- The bus looks at memory and the platform. -/
theorem AgreeOn.busRead (h : AgreeOn F s t) (a : Addr) : AgreeAttempt F (s.busRead a) (t.busRead a) := by
  have hfails : t.readFails a = s.readFails a := h.same (State.readFails · a)
  have hbyte : t.byteAt a = s.byteAt a := h.same (State.byteAt · a)
  simp only [State.busRead, hfails, hbyte]
  split
  · exact .raised (h.update (State.failedRead a))
  · exact .ok _ (h.update (State.afterRead a))

theorem AgreeOn.busRead16 (h : AgreeOn F s t) (a : Addr) : AgreeAttempt F (s.busRead16 a) (t.busRead16 a) :=
  (h.busRead a).andThen _ _ fun _ _ _ h => (h.busRead _).andThen _ _ fun _ _ _ h => .ok _ h

theorem AgreeOn.busReadZP (h : AgreeOn F s t) (z : Byte) : AgreeAttempt F (s.busReadZP z) (t.busReadZP z) :=
  (h.busRead _).andThen _ _ fun _ _ _ h => (h.busRead _).andThen _ _ fun _ _ _ h => .ok _ h

theorem AgreeOn.busReadN (n : Nat) (h : AgreeOn F s t) (a : Addr) :
    AgreeAttempt F (s.busReadN n a) (t.busReadN n a) := by
  induction n generalizing a s t with
  | zero => exact .ok [] h
  | succ n ih => exact (h.busRead a).andThen _ _ fun _ _ _ h => (ih h (a + 1)).andThen _ _ fun _ _ _ h => .ok _ h

theorem AgreeOn.resolveLocation (h : AgreeOn F s t) (o : Operand) :
    AgreeAttempt F (s.resolveLocation o) (t.resolveLocation o) := by
  cases o with
  | relative d => exact .raised (h.update (State.raise _))
  | indirect w => exact (h.busRead16 w).andThen _ _ fun _ _ _ h => .ok _ h
  | indirectX z =>
    simp only [State.resolveLocation, h.same State.x]
    exact (h.busReadZP _).andThen _ _ fun _ _ _ h => .ok _ h
  | indirectY z =>
    simp only [State.resolveLocation, h.same State.y]
    exact (h.busReadZP z).andThen _ _ fun _ _ _ h => .ok _ h
  | zeroPageX z => simp only [State.resolveLocation, h.same State.x]; exact .ok _ h
  | zeroPageY z => simp only [State.resolveLocation, h.same State.y]; exact .ok _ h
  | absoluteX w => simp only [State.resolveLocation, h.same State.x]; exact .ok _ h
  | absoluteY w => simp only [State.resolveLocation, h.same State.y]; exact .ok _ h
  | _ => exact .ok _ h

theorem AgreeOn.resolveAddress (h : AgreeOn F s t) (o : Operand) :
    AgreeAttempt F (s.resolveAddress o) (t.resolveAddress o) := by
  refine (h.resolveLocation o).andThen _ _ fun loc _ _ h => ?_
  cases loc with
  | memory ea => exact .ok ea h
  | accumulator => exact .raised (h.update (State.raise _))
  | none => exact .raised (h.update (State.raise _))

theorem AgreeOn.resolveByte (h : AgreeOn F s t) (o : Operand) :
    AgreeAttempt F (s.resolveByte o) (t.resolveByte o) := by
  unfold State.resolveByte
  split
  · exact .raised (h.update (State.raise _))
  · exact .ok _ h
  · exact (h.resolveAddress _).andThen _ _ fun ea _ _ h => h.busRead ea

/-! ### Execution -/

theorem AgreeOn.withByte (h : AgreeOn F s t) (o : Operand) (f : Byte → State → State)
    (hf : ∀ v s t, AgreeOn F s t → AgreeOn F (f v s) (f v t)) :
    AgreeAnswer F (withByte o s f) (withByte o t f) := by
  unfold Machine.withByte
  cases byteFault o with
  | some k => exact .next (h.update (State.raise k))
  | none =>
    have hr := (h.update (State.consume o)).resolveByte o
    generalize (s.consume o).resolveByte o = r, (t.consume o).resolveByte o = r' at hr ⊢
    cases hr with
    | ok v h => exact .next (hf v _ _ h)
    | raised h => exact .next h

theorem AgreeOn.withAddress (h : AgreeOn F s t) (o : Operand) (f : Addr → State → State)
    (hf : ∀ v s t, AgreeOn F s t → AgreeOn F (f v s) (f v t)) :
    AgreeAnswer F (withAddress o s f) (withAddress o t f) := by
  unfold Machine.withAddress
  cases addressFault o with
  | some k => exact .next (h.update (State.raise k))
  | none =>
    have hr := (h.update (State.consume o)).resolveAddress o
    generalize (s.consume o).resolveAddress o = r, (t.consume o).resolveAddress o = r' at hr ⊢
    cases hr with
    | ok ea h => exact .next (hf ea _ _ h)
    | raised h => exact .next h

theorem AgreeOn.withoutInput (h : AgreeOn F s t) (o : Operand) (f : State → State)
    (hf : ∀ s t, AgreeOn F s t → AgreeOn F (f s) (f t)) :
    AgreeAnswer F (withoutInput o s f) (withoutInput o t f) := .next (hf _ _ (h.update (State.consume o)))

/-- Every instruction in every form: ADC reads Carry, no other reads a flag. -/
theorem AgreeOn.exec (h : AgreeOn F s t) (hc : F .carry) (i : Instr) : AgreeAnswer F (exec i s) (exec i t) := by
  cases i with
  | adc o => exact h.withByte o _ fun v _ _ h => h.addWithCarry hc v
  | jmp o => exact h.withAddress o _ fun ea _ _ h => h.update (State.setPc ea)
  | clc o => exact h.withoutInput o _ fun _ _ h => h.setFlag .carry false
  | cld o => exact h.withoutInput o _ fun _ _ h => h.setFlag .decimal false
  | cli o => exact h.withoutInput o _ fun _ _ h => h.setFlag .interruptDisable false
  | clv o => exact h.withoutInput o _ fun _ _ h => h.setFlag .overflow false
  | sec o => exact h.withoutInput o _ fun _ _ h => h.setFlag .carry true
  | sed o => exact h.withoutInput o _ fun _ _ h => h.setFlag .decimal true
  | sei o => exact h.withoutInput o _ fun _ _ h => h.setFlag .interruptDisable true
  | tax o => exact h.withoutInput o _ fun _ _ h => (h.update fun t => t.setX t.a).setZeroNegative State.x
  | tay o => exact h.withoutInput o _ fun _ _ h => (h.update fun t => t.setY t.a).setZeroNegative State.y
  | txa o => exact h.withoutInput o _ fun _ _ h => (h.update fun t => t.setA t.x).setZeroNegative State.a
  | tya o => exact h.withoutInput o _ fun _ _ h => (h.update fun t => t.setA t.y).setZeroNegative State.a
  | inx o => exact h.withoutInput o _ fun _ _ h => (h.update fun t => t.setX (t.x + 1)).setZeroNegative State.x
  | iny o => exact h.withoutInput o _ fun _ _ h => (h.update fun t => t.setY (t.y + 1)).setZeroNegative State.y
  | nop o => exact h.withoutInput o _ fun _ _ h => h
  | _ o => exact .next (h.update (State.raise _))

/-! ### The step -/

theorem AgreeOn.readOperands (h : AgreeOn F s t) (r : Row) :
    AgreeFetched F (s.readOperands r) (t.readOperands r) := by
  have hr := (h.update (State.advance 1)).busReadN (operandCount r.mode) (s.pc + 1)
  unfold State.readOperands
  rw [h.same State.pc]
  generalize (s.advance 1).busReadN _ _ = x, (t.advance 1).busReadN _ _ = y at hr ⊢
  cases hr with
  | ok ops h => exact .ready _ h
  | raised h => exact .ended h

theorem AgreeOn.fetchInstr (h : AgreeOn F s t) : AgreeFetched F s.fetchInstr t.fetchInstr := by
  have hr := h.busRead s.pc
  unfold State.fetchInstr
  rw [h.same State.pc]
  generalize s.busRead _ = x, t.busRead _ = y at hr ⊢
  cases hr with
  | raised h => exact .ended h
  | @ok s t b h =>
    simp only [h.same State.params]
    split
    · exact .ended (h.update (State.raise _))
    · exact h.readOperands _

theorem AgreeOn.fetch (h : AgreeOn F s t) : AgreeFetched F s.fetch t.fetch := by
  simp only [State.fetch, h.same State.run, h.same State.atBoundary]
  split
  · exact .noStep _
  · exact .noStep _
  · split
    · exact .ended (h.update fun s => s.beginStep.halt)
    · exact (h.update State.beginStep).fetchInstr

theorem AgreeOn.step (h : AgreeOn F s t) (hc : F .carry) : AgreeAnswer F (step s) (step t) := by
  have hf := h.fetch
  unfold Machine.step
  generalize s.fetch = x, t.fetch = y at hf ⊢
  cases hf with
  | noStep f => exact .fault f
  | ended h => exact .next h
  | ready i h => exact h.exec hc i

/-- Settles O37: every step keeps every agreement that includes Carry, so it keeps agreement on all flags the two
runs agreed on. -/
theorem onlyCarryFlagIsRead : Obligations.OnlyCarryFlagIsRead := by
  intro s q hcarry
  have hs : AgreeOn (fun f => getFlag f q = s.flag f) s { s with p := q } := .withP q fun _ hf => hf
  have hstep := hs.step hcarry
  refine ⟨fun t ht => ?_, fun f hf => ?_⟩
  · rw [ht] at hstep
    generalize Machine.step { s with p := q } = r at hstep ⊢
    obtain ⟨⟨p, hp⟩⟩ := hstep
    exact ⟨p, rfl, hp .carry hcarry, hp⟩
  · rw [hf] at hstep
    generalize Machine.step { s with p := q } = r at hstep ⊢
    cases hstep
    rfl

end Sys2Proof.Machine
end

section
/-! PROOFS. What a step keeps: everything up to its end only reads and writes registers, and its end writes `RUN`
and records at most one failing read (spec/10_state.md R24, R31, spec/20_memory.md R60, R62, R63). -/

namespace Sys2Proof.Machine

/-! ### A step up to its end -/

/-- `t` comes from `s` by bus reads that all answered and by register writes that spare `S` and the break bits. -/
structure Proceeds (s t : State) : Prop where
  stack : t.s = s.s
  vectors : t.vec = s.vec
  parameters : t.params = s.params
  running : t.run = s.run
  breakLeft : t.flag .breakLeft = s.flag .breakLeft
  breakRight : t.flag .breakRight = s.flag .breakRight
  reads : ∃ as : List Addr, t.accesses = s.accesses ++ as.map .read ∧
    t.mem = (s.afterReads as).mem ∧ t.freeBytes = (s.afterReads as).freeBytes

theorem Proceeds.trans {s t u : State} (h : Proceeds s t) (k : Proceeds t u) : Proceeds s u where
  stack := k.stack.trans h.stack
  vectors := k.vectors.trans h.vectors
  parameters := k.parameters.trans h.parameters
  running := k.running.trans h.running
  breakLeft := k.breakLeft.trans h.breakLeft
  breakRight := k.breakRight.trans h.breakRight
  reads := by
    obtain ⟨as, ha, hm, hf⟩ := h.reads
    obtain ⟨bs, hb, hm', hf'⟩ := k.reads
    have hp : t.params = (s.afterReads as).params := by rw [h.parameters, State.afterReads_params]
    have hbs := State.afterReads_mem_congr (s.afterReads as) t bs hm hf hp
    rw [State.afterReads_append] at hbs
    exact ⟨as ++ bs, by simp [hb, ha], hm'.trans hbs.1, hf'.trans hbs.2⟩

theorem AfterReads.proceeds {s t : State} (h : AfterReads s t) : Proceeds s t := by
  obtain ⟨as, rfl⟩ := h
  have heq := State.afterReads_eq s as
  exact ⟨by rw [heq], by rw [heq], by rw [heq], by rw [heq], by rw [heq]; rfl, by rw [heq]; rfl,
    as, by rw [heq], rfl, rfl⟩

theorem RegisterWrites.proceeds {s t : State} (h : RegisterWrites s t) : Proceeds s t := by
  obtain ⟨heq, hl, hr⟩ := h
  exact ⟨by rw [heq], by rw [heq], by rw [heq], by rw [heq], hl, hr, [], by rw [heq]; simp, by rw [heq]; rfl,
    by rw [heq]; rfl⟩

theorem Proceeds.refl (s : State) : Proceeds s s := (registerWrites_refl s).proceeds

theorem proceeds_setPc (s : State) (t : Addr) : Proceeds s (s.setPc t) := (registerWrites_setPc s t).proceeds

/-! ### The end of a step -/

/-- How a step of `s` that has come to `u` ends: as it is, halted (R100), or by one of the faults (R250 to R254). -/
inductive StepEnd (s u : State) : State → Prop
  | completed : StepEnd s u u
  | halted : StepEnd s u u.halt
  | decodeFailure (b : Byte) : StepEnd s u (u.raise (.decodeFailure b))
  | firstFault (r : Row) (ops : List Byte) (k : FaultKind) (hr : s.params.optab.lookup (s.byteAt s.pc) = some r)
      (hk : FirstFault r.operation (assemble r.mode ops) k) : StepEnd s u (u.raise k)
  | busFailure (a : Addr) : StepEnd s u (u.failedRead a)

theorem Row.instr_operation (r : Row) (ops : List Byte) : (r.instr ops).operation = r.operation := by
  rw [Row.instr]
  cases r.operation <;> rfl

theorem Row.instr_operand (r : Row) (ops : List Byte) : (r.instr ops).operand = assemble r.mode ops := by
  rw [Row.instr]
  cases r.operation <;> rfl

/-- A dispatched instruction ends by its first fault, by a bus failure after reads, or completed. -/
theorem exec_proceeds (s u t : State) (r : Row) (ops : List Byte)
    (hr : s.params.optab.lookup (s.byteAt s.pc) = some r) (h : exec (r.instr ops) u = .next t) :
    ∃ v, Proceeds u v ∧ StepEnd s v t := by
  have he := exec_effect (r.instr ops) u
  rw [h, Row.instr_operation, Row.instr_operand] at he
  obtain ⟨k, hk, ht⟩ | ⟨_, _, ⟨as, a, rfl⟩, ht⟩ | ⟨_, v, w, hv, hw, ht⟩ := he <;> cases ht
  · exact ⟨u, .refl u, .firstFault r ops k hr hk⟩
  · exact ⟨_, (proceeds_setPc u _).trans (AfterReads.proceeds ⟨as, rfl⟩), .busFailure a⟩
  · exact ⟨t, ((proceeds_setPc u _).trans hv.proceeds).trans hw.proceeds, .completed⟩

/-- Everything a step can do: from a running core, reads and register writes, then one of the ends. -/
theorem step_cases {s t : State} (h : step s = .next t) :
    s.run = .running ∧ ∃ u, Proceeds s.beginStep u ∧ StepEnd s u t := by
  obtain ⟨_, hf⟩ | ⟨_, _, hf⟩ | ⟨hrun, _, hf⟩ | ⟨hrun, _, _, hf⟩ | ⟨hrun, _, _, _, hf⟩ | ⟨hrun, _, _, r, hr, hf⟩ :=
    s.fetch_cases
  · rw [step_of_noStep hf] at h; cases h
  · rw [step_of_noStep hf] at h; cases h
  · rw [step_of_over hf] at h; cases h
    exact ⟨hrun, _, .refl _, .halted⟩
  · rw [step_of_over hf] at h; cases h
    exact ⟨hrun, _, .refl _, .busFailure _⟩
  · rw [step_of_over hf] at h; cases h
    exact ⟨hrun, _, AfterReads.proceeds ⟨[s.pc], rfl⟩, .decodeFailure _⟩
  · have hopcode : Proceeds s.beginStep ((s.beginStep.afterRead s.pc).advance 1) :=
      (AfterReads.proceeds ⟨[s.pc], rfl⟩).trans (proceeds_setPc _ _)
    obtain ⟨_, ⟨as, a, rfl⟩, ho⟩ | ⟨ops, u, hu, ho⟩ := (s.beginStep.afterRead s.pc).readOperands_cases r
    · rw [step_of_over (hf.trans ho)] at h; cases h
      exact ⟨hrun, _, hopcode.trans (AfterReads.proceeds ⟨as, rfl⟩), .busFailure a⟩
    · rw [step_of_ready (hf.trans ho)] at h
      obtain ⟨v, hv, hend⟩ := exec_proceeds s u t r ops hr h
      exact ⟨hrun, v, (hopcode.trans hu.proceeds).trans hv, hend⟩

theorem StepEnd.eq {s u t : State} (h : StepEnd s u t) : t = { u with run := t.run, accesses := t.accesses } := by
  cases h <;> rfl

theorem byteFault_eq_some (o : Operand) (k : FaultKind) (h : byteFault o = some k) :
    k = .invalidAddressing o.mode .byte ∧ o.mode ∈ [Mode.implied, .accumulator, .relative] := by
  cases o <;> cases h <;> simp [Operand.mode]

theorem addressFault_eq_some (o : Operand) (k : FaultKind) (h : addressFault o = some k) :
    (∃ q, k = .invalidAddressing o.mode q) ∧ o.mode ∈ [Mode.implied, .accumulator, .immediate, .relative] := by
  cases o <;> cases h <;> simp [Operand.mode]

/-- Before anything is written no bus access is made, so none fails. -/
theorem FirstFault.ne_busFailure {op : Operation} {o : Operand} {k : FaultKind} (h : FirstFault op o k) (a : Addr) :
    k ≠ .busFailure a := by
  obtain ⟨_, rfl⟩ | ⟨_, hb⟩ | ⟨_, ha⟩ := h
  · simp
  · simp [(byteFault_eq_some o k hb).1]
  · obtain ⟨⟨q, rfl⟩, _⟩ := addressFault_eq_some o k ha
    simp

/-- A step that ends in `BusFailure` records the failing read last; no other end records an access. -/
theorem StepEnd.accesses {s u t : State} (h : StepEnd s u t) (hu : u.run = .running) :
    ∃ failed : List Addr, t.accesses = u.accesses ++ failed.map .read ∧
      ((failed = [] ∧ ∀ a, t.run ≠ .faulted (.busFailure a)) ∨
        ∃ a, failed = [a] ∧ t.run = .faulted (.busFailure a)) := by
  cases h with
  | completed => exact ⟨[], by simp, .inl ⟨rfl, by simp [hu]⟩⟩
  | halted => exact ⟨[], by simp, .inl ⟨rfl, by simp⟩⟩
  | decodeFailure b => exact ⟨[], by simp, .inl ⟨rfl, by simp⟩⟩
  | firstFault r ops k hr hk => exact ⟨[], by simp, .inl ⟨rfl, fun a => by simpa using hk.ne_busFailure a⟩⟩
  | busFailure a => exact ⟨[a], by simp, .inr ⟨a, rfl, by simp⟩⟩

/-- R60, R62: the memory a step leaves is that of its answered reads. -/
theorem step_memoryByReads {s t : State} (h : step s = .next t) : MemoryByReads s t := by
  obtain ⟨hrun, u, hu, hend⟩ := step_cases h
  obtain ⟨answered, hacc, hmem, hfree⟩ := hu.reads
  obtain ⟨failed, hfacc, hfailed⟩ := hend.accesses (hu.running.trans hrun)
  have hbegin := State.afterReads_mem_congr s s.beginStep answered rfl rfl rfl
  have heq := hend.eq
  refine ⟨answered, failed, by rw [hfacc, hacc]; simp, hfailed, ?_, ?_⟩
  · rw [heq]; exact hmem.trans hbegin.1
  · rw [heq]; exact hfree.trans hbegin.2

/-- Settles O38: a step is reads and register writes and then an end that writes `RUN` and the accesses. -/
theorem stepKeepsStackVectorsMemoryAndBreakBits : Obligations.StepKeepsStackVectorsMemoryAndBreakBits := by
  intro s t h
  obtain ⟨_, u, hu, hend⟩ := step_cases h
  have heq := hend.eq
  have hmemory := step_memoryByReads h
  exact {
    stack := by rw [heq]; exact hu.stack
    vectors := by rw [heq]; exact hu.vectors
    memory := hmemory
    flatMemory := fun hflat => by
      obtain ⟨answered, _, _, _, hmem, _⟩ := hmemory
      rw [hmem, State.afterReads_flat_mem s answered hflat]
    parameters := by rw [heq]; exact hu.parameters
    breakLeft := by rw [heq]; exact hu.breakLeft
    breakRight := by rw [heq]; exact hu.breakRight }

end Sys2Proof.Machine
end

section
/-! PROOFS. The machine's invariant: a step makes at most six reads, and under the default table no row asks a mode
for what it cannot give (spec/20_memory.md R63, spec/40_step_and_addressing.md R113). -/

namespace Sys2Proof.Machine

/-! ### How many accesses a piece of a step makes -/

/-- The state a piece leaves, with its value or after a fault. -/
def Attempt.state {α : Type} : Attempt α → State
  | .ok _ s => s
  | .raised s => s

/-- The piece, run from `s`, records at most `n` accesses. -/
def ReadsAtMost {α : Type} (n : Nat) (s : State) (r : Attempt α) : Prop :=
  r.state.accesses.length ≤ s.accesses.length + n

theorem ReadsAtMost.andThen {α β : Type} {n m : Nat} {s : State} {r : Attempt α} (h : ReadsAtMost n s r)
    (f : α → State → Attempt β) (hf : ∀ v t, ReadsAtMost m t (f v t)) : ReadsAtMost (m + n) s (r.andThen f) := by
  cases r with
  | ok v t =>
    have hv := hf v t
    simp only [ReadsAtMost, Attempt.state, Attempt.andThen] at h hv ⊢
    omega
  | raised t => exact Nat.le_trans h (Nat.add_le_add_left (Nat.le_add_left n m) _)

/-- A value made of what was read costs no access. -/
theorem ReadsAtMost.map {α β : Type} {n : Nat} {s : State} {r : Attempt α} (h : ReadsAtMost n s r) (g : α → β) :
    ReadsAtMost n s (r.andThen fun v t => .ok (g v) t) := by
  cases r with
  | ok v t => exact h
  | raised t => exact h

theorem readsAtMost_ok {α : Type} (n : Nat) (v : α) (s : State) : ReadsAtMost n s (.ok v s) := Nat.le_add_right _ _

theorem readsAtMost_raise {α : Type} (n : Nat) (k : FaultKind) (s : State) :
    ReadsAtMost n s (.raised (s.raise k) : Attempt α) := Nat.le_add_right _ _

theorem State.busRead_readsAtMost (a : Addr) (s : State) : ReadsAtMost 1 s (s.busRead a) := by
  cases h : s.readFails a with
  | false => simp [State.busRead_ok a s h, ReadsAtMost, Attempt.state]
  | true => simp [State.busRead_fails a s h, ReadsAtMost, Attempt.state]

theorem State.busRead16_readsAtMost (a : Addr) (s : State) : ReadsAtMost 2 s (s.busRead16 a) :=
  (s.busRead_readsAtMost a).andThen _ fun _ t => (t.busRead_readsAtMost _).map _

theorem State.busReadZP_readsAtMost (z : Byte) (s : State) : ReadsAtMost 2 s (s.busReadZP z) :=
  (s.busRead_readsAtMost _).andThen _ fun _ t => (t.busRead_readsAtMost _).map _

theorem State.busReadN_readsAtMost (n : Nat) (a : Addr) (s : State) : ReadsAtMost n s (s.busReadN n a) := by
  induction n generalizing a s with
  | zero => exact readsAtMost_ok 0 [] s
  | succ n ih =>
    exact (s.busRead_readsAtMost a).andThen _ fun _ t => (ih (a + 1) t).map _

theorem State.resolveLocation_readsAtMost (o : Operand) (s : State) : ReadsAtMost 2 s (s.resolveLocation o) := by
  cases o with
  | relative d => exact readsAtMost_raise 2 _ s
  | indirect w => exact (s.busRead16_readsAtMost w).map _
  | indirectX z => exact (s.busReadZP_readsAtMost _).map _
  | indirectY z => exact (s.busReadZP_readsAtMost z).map _
  | _ => exact readsAtMost_ok 2 _ s

theorem State.resolveAddress_readsAtMost (o : Operand) (s : State) : ReadsAtMost 2 s (s.resolveAddress o) := by
  refine (s.resolveLocation_readsAtMost o).andThen (m := 0) _ fun loc t => ?_
  cases loc with
  | memory ea => exact readsAtMost_ok 0 ea t
  | accumulator => exact readsAtMost_raise 0 _ t
  | none => exact readsAtMost_raise 0 _ t

/-- Two pointer bytes and the data byte. -/
theorem State.resolveByte_readsAtMost (o : Operand) (s : State) : ReadsAtMost 3 s (s.resolveByte o) := by
  unfold State.resolveByte
  split
  · exact readsAtMost_raise 3 _ s
  · exact readsAtMost_ok 3 _ s
  · exact (s.resolveAddress_readsAtMost _).andThen _ fun ea t => t.busRead_readsAtMost ea

theorem withByte_accesses {o : Operand} {s t : State} {f : Byte → State → State}
    (hf : ∀ v u, (f v u).accesses = u.accesses) (h : withByte o s f = .next t) :
    t.accesses.length ≤ s.accesses.length + 3 := by
  have hreads := (s.consume o).resolveByte_readsAtMost o
  unfold withByte at h
  split at h
  · cases h; exact Nat.le_add_right _ _
  · generalize (s.consume o).resolveByte o = r at h hreads
    cases r with
    | ok v u => cases h; rw [hf]; exact hreads
    | raised u => cases h; exact hreads

theorem withAddress_accesses {o : Operand} {s t : State} {f : Addr → State → State}
    (hf : ∀ ea u, (f ea u).accesses = u.accesses) (h : withAddress o s f = .next t) :
    t.accesses.length ≤ s.accesses.length + 2 := by
  have hreads := (s.consume o).resolveAddress_readsAtMost o
  unfold withAddress at h
  split at h
  · cases h; exact Nat.le_add_right _ _
  · generalize (s.consume o).resolveAddress o = r at h hreads
    cases r with
    | ok ea u => cases h; rw [hf]; exact hreads
    | raised u => cases h; exact hreads

/-- ADC makes at most three reads for its input, JMP two, every other instruction none. -/
theorem exec_accesses {i : Instr} {s t : State} (h : exec i s = .next t) :
    t.accesses.length ≤ s.accesses.length + 3 := by
  cases i with
  | adc o => exact withByte_accesses (f := State.addWithCarry) (fun _ _ => rfl) h
  | jmp o => exact (withAddress_accesses (f := State.setPc) (fun _ _ => rfl) h).trans (Nat.le_succ _)
  | _ o => obtain rfl := Host.Outcome.next.inj h; exact Nat.le_add_right _ _

theorem operandCount_le (m : Mode) : operandCount m ≤ 2 := by
  cases m <;> decide

/-- The operand read makes at most two reads, answered or not. -/
theorem State.readOperands_accesses (r : Row) (s : State) :
    ∃ t : State, t.accesses.length ≤ s.accesses.length + 2 ∧
      (s.readOperands r = .over t ∨ ∃ ops, s.readOperands r = .ready (r.instr ops) t) := by
  have hreads := (s.advance 1).busReadN_readsAtMost (operandCount r.mode) (s.pc + 1)
  have hcount := Nat.add_le_add_left (operandCount_le r.mode) s.accesses.length
  unfold State.readOperands
  generalize (s.advance 1).busReadN _ _ = x at hreads ⊢
  cases x with
  | ok ops t => exact ⟨t, Nat.le_trans hreads hcount, .inr ⟨ops, rfl⟩⟩
  | raised t => exact ⟨t, Nat.le_trans hreads hcount, .inl rfl⟩

/-- R63: opcode and operand bytes make at most three reads, the instruction's input at most three more. -/
theorem step_accesses_le_six {s t : State} (h : step s = .next t) : t.accesses.length ≤ 6 := by
  obtain ⟨_, hf⟩ | ⟨_, _, hf⟩ | ⟨_, _, hf⟩ | ⟨_, _, _, hf⟩ | ⟨_, _, _, _, hf⟩ | ⟨_, _, _, r, _, hf⟩ := s.fetch_cases
  · rw [step_of_noStep hf] at h; cases h
  · rw [step_of_noStep hf] at h; cases h
  · rw [step_of_over hf] at h; cases h; simp
  · rw [step_of_over hf] at h; cases h; simp
  · rw [step_of_over hf] at h; cases h; simp
  · obtain ⟨u, hu, ho | ⟨ops, ho⟩⟩ := (s.beginStep.afterRead s.pc).readOperands_accesses r
    · rw [step_of_over (hf.trans ho)] at h; cases h
      exact hu.trans (by simp)
    · rw [step_of_ready (hf.trans ho)] at h
      exact (exec_accesses h).trans (Nat.add_le_add_right hu 3)

/-! ### The default table and `InvalidAddressing` -/

theorem findOpcode_mem {b : Byte} {rows : List Row} {r : Row} (h : findOpcode b rows = some r) : r ∈ rows := by
  induction rows with
  | nil => cases h
  | cons x rest ih =>
    rw [findOpcode] at h
    split at h
    · cases h; exact List.mem_cons_self ..
    · exact List.mem_cons_of_mem x (ih h)

/-- R86: every row of the default table pairs its operation with one of its modes. -/
theorem standardRows_modes : ∀ r ∈ standardRows, r.mode ∈ r.operation.modes := by decide +kernel

theorem assemble_mode (m : Mode) (ops : List Byte) : (assemble m ops).mode = m := by
  cases m <;> rfl

theorem adc_modes_give_byte : ∀ m ∈ Operation.adc.modes, m ∉ [Mode.implied, .accumulator, .relative] := by decide

theorem jmp_modes_give_address :
    ∀ m ∈ Operation.jmp.modes, m ∉ [Mode.implied, .accumulator, .immediate, .relative] := by decide

/-- R113: under the default table ADC is given modes with a byte and JMP modes with an address. -/
theorem FirstFault.unimplemented_of_standard {b : Byte} {r : Row} {ops : List Byte} {k : FaultKind}
    (hr : Optab.standard.lookup b = some r) (hk : FirstFault r.operation (assemble r.mode ops) k) :
    k = .unimplementedOperation r.operation := by
  have hmode := standardRows_modes r (findOpcode_mem hr)
  obtain ⟨_, rfl⟩ | ⟨hop, hb⟩ | ⟨hop, ha⟩ := hk
  · rfl
  · have hbad := (byteFault_eq_some _ k hb).2
    rw [assemble_mode] at hbad
    rw [hop] at hmode
    exact absurd hbad (adc_modes_give_byte _ hmode)
  · have hbad := (addressFault_eq_some _ k ha).2
    rw [assemble_mode] at hbad
    rw [hop] at hmode
    exact absurd hbad (jmp_modes_give_address _ hmode)

theorem step_invalidAddressingFault {s t : State} (htable : s.params.optab = .standard) (h : step s = .next t) :
    t.invalidAddressingFault = false := by
  obtain ⟨hrun, u, hu, hend⟩ := step_cases h
  have hurun : u.run = .running := hu.running.trans hrun
  cases hend with
  | completed => simp [State.invalidAddressingFault, hurun]
  | halted => rfl
  | decodeFailure b => rfl
  | firstFault r ops k hr hk =>
    rw [htable] at hr
    rw [hk.unimplemented_of_standard hr]
    rfl
  | busFailure a => rfl

/-- R60: every recorded access of a step is a read. -/
theorem step_onlyReads {s t : State} (h : step s = .next t) : t.onlyReads = true := by
  obtain ⟨answered, failed, hacc, _⟩ := step_memoryByReads h
  rw [State.onlyReads, hacc]
  simp

/-- The memory a step leaves is canonical where it was: only the platform's changes are made to it. -/
theorem step_memory_wf {s t : State} (hwf : s.mem.wf = true) (h : step s = .next t) : t.mem.wf = true := by
  obtain ⟨answered, _, _, _, hmem, _⟩ := step_memoryByReads h
  rw [hmem]
  exact State.afterReads_wf s answered hwf

/-- Settles O42, one lemma per clause; `S` and the table are among what every step keeps (O38). -/
theorem everyStepKeepsTheInvariant : Obligations.EveryStepKeepsTheInvariant := by
  intro s t hs h
  have hkept := stepKeepsStackVectorsMemoryAndBreakBits s t h
  exact {
    memory := step_memory_wf hs.memory h
    stack := hkept.stack.trans hs.stack
    table := by rw [hkept.parameters]; exact hs.table
    addressing := step_invalidAddressingFault hs.table h
    reads := step_onlyReads h
    bounded := step_accesses_le_six h }

end Sys2Proof.Machine
end

section
/-! PROOFS. The bus: a write, a pair of reads, and a read on a platform without read side effects
(spec/20_memory.md R56 to R62). -/

namespace Sys2Proof.Machine

/-! ### Writes -/

theorem State.busWrite_fails (a : Addr) (v : Byte) (s : State) (h : s.writeFails a = true) :
    s.busWrite a v = .raised ((s.logAccess (.write a v)).raise (.busFailure a)) := by
  simp [State.busWrite, h]

theorem State.busWrite_ok (a : Addr) (v : Byte) (s : State) (h : s.writeFails a = false) :
    s.busWrite a v = .ok () { s.logAccess (.write a v) with mem := s.mem.write a.toNat v } := by
  simp [State.busWrite, h]

/-- Settles O7: an answered write is a write of the memory list, whose laws give the byte, the other bytes and the
canonical form. -/
theorem busWriteStoresExactlyOneByte : Obligations.BusWriteStoresExactlyOneByte := by
  intro a v s hwf
  refine ⟨s.busWrite_fails a v, fun h => ⟨_, s.busWrite_ok a v h, ?_, fun b hb => ?_, ?_, rfl⟩⟩
  · exact Memory.read_write_same s.mem 0 a.toNat v hwf
  · exact Memory.read_write_other s.mem a.toNat b.toNat v fun e => hb (BitVec.eq_of_toNat_eq e)
  · exact Memory.write_wf s.mem a v hwf

/-! ### Reads -/

theorem State.busRead_andThen {β : Type} (a : Addr) (s : State) (f : Byte → State → Attempt β) :
    (s.busRead a).andThen f =
      if s.readFails a then .raised (s.failedRead a) else f (s.byteAt a) (s.afterRead a) := by
  cases h : s.readFails a with
  | false => simp [State.busRead_ok a s h, Attempt.andThen]
  | true => simp [State.busRead_fails a s h, Attempt.andThen]

/-- R57, R58: the low byte is read first, and the high byte in the state that read leaves. -/
theorem State.busRead_lowThenHigh (lo hi : Addr) (s : State) :
    ((s.busRead lo).andThen fun l t => (t.busRead hi).andThen fun h u => .ok (joinBytes h l) u) =
      if s.readFails lo then .raised (s.failedRead lo)
      else if s.readFails hi then .raised ((s.afterRead lo).failedRead hi)
      else .ok (s.wordRead lo hi) ((s.afterRead lo).afterRead hi) := by
  simp only [State.busRead_andThen, State.readFails_afterRead]
  rfl

/-- Settles O6: a pair of reads at `a` and `a + 1`, the sum being one of addresses. -/
theorem sixteenBitReadsCarryIntoTheNextPage : Obligations.SixteenBitReadsCarryIntoTheNextPage := fun a s =>
  s.busRead_lowThenHigh a (a + 1)

/-- Settles O5: a pair of reads at `zext(z)` and `zext(z + 1)`, the sum being one of bytes. -/
theorem zeroPagePointerReadsStayInPageZero : Obligations.ZeroPagePointerReadsStayInPageZero := fun z s => by
  simp only [← zext16_eq]
  exact s.busRead_lowThenHigh (zext16 z) (zext16 (z + 1))

/-- Settles O48: without read side effects an answered read only records itself, so the second read meets the same
memory. -/
theorem flatPlatformReadsHaveNoSideEffect : Obligations.FlatPlatformReadsHaveNoSideEffect := by
  refine ⟨rfl, fun a s hflat hread => ?_⟩
  have hfirst := s.busRead_ok a hread
  have hsecond := (s.afterRead a).busRead_ok a hread
  rw [State.afterRead_flat (s.afterRead a) a hflat, State.afterRead_flat s a hflat] at hsecond
  rw [State.afterRead_flat s a hflat] at hfirst ⊢
  exact ⟨hfirst, hsecond⟩

end Sys2Proof.Machine
end

section
/-! PROOFS. The bus accesses of one step: the opcode byte first, and under the default table at most five
(spec/20_memory.md R60, R63, R64). -/

namespace Sys2Proof.Machine

/-! ### What follows the read of the opcode byte -/

/-- `t` comes from `s` after the halt check of a step: the accesses of `s` stand first in its record, and it has not
halted since. -/
structure GoesOn (s t : State) : Prop where
  accesses : s.accesses <+: t.accesses
  halted : t.run = .halted → s.run = .halted

theorem GoesOn.trans {s t u : State} (h : GoesOn s t) (k : GoesOn t u) : GoesOn s u :=
  ⟨h.accesses.trans k.accesses, h.halted ∘ k.halted⟩

theorem Proceeds.goesOn {s t : State} (h : Proceeds s t) : GoesOn s t := by
  obtain ⟨as, hacc, _⟩ := h.reads
  exact ⟨⟨_, hacc.symm⟩, h.running.symm.trans⟩

theorem goesOn_raise (k : FaultKind) (s : State) : GoesOn s (s.raise k) := ⟨List.prefix_rfl, by simp⟩

theorem goesOn_failedRead (a : Addr) (s : State) : GoesOn s (s.failedRead a) :=
  ⟨List.prefix_append .., by simp⟩

theorem AfterBusFailure.goesOn {s t : State} (h : AfterBusFailure s t) : GoesOn s t := by
  obtain ⟨as, a, rfl⟩ := h
  exact (AfterReads.proceeds ⟨as, rfl⟩).goesOn.trans (goesOn_failedRead a _)

theorem exec_goesOn {i : Instr} {s t : State} (h : exec i s = .next t) : GoesOn s t := by
  have he := exec_effect i s
  rw [h] at he
  obtain ⟨k, _, ht⟩ | ⟨_, _, hfail, ht⟩ | ⟨_, u, _, hu, hw, ht⟩ := he <;> cases ht
  · exact goesOn_raise k s
  · exact (proceeds_setPc s _).goesOn.trans hfail.goesOn
  · exact (((proceeds_setPc s _).trans hu.proceeds).trans hw.proceeds).goesOn

theorem State.readOperands_of_raised {r : Row} {s t : State}
    (h : (s.advance 1).busReadN (operandCount r.mode) (s.pc + 1) = .raised t) : s.readOperands r = .over t := by
  simp only [State.readOperands, h]

theorem State.readOperands_of_ok {r : Row} {s t : State} {ops : List Byte}
    (h : (s.advance 1).busReadN (operandCount r.mode) (s.pc + 1) = .ok ops t) :
    s.readOperands r = .ready (r.instr ops) t := by
  simp only [State.readOperands, h]

/-- How a step ends that has read the opcode byte of the row `r` and come to `u`: an operand read fails (R104), or
the instruction is dispatched (R105). -/
inductive RowRuns (r : Row) (u t : State) : Prop
  | operandReadFails (h : (u.advance 1).busReadN (operandCount r.mode) (u.pc + 1) = .raised t)
  | dispatched (ops : List Byte) (v : State)
      (h : (u.advance 1).busReadN (operandCount r.mode) (u.pc + 1) = .ok ops v)
      (he : exec (r.instr ops) v = .next t)

/-- A step halts, ends at the opcode byte, which it fails to read or to decode, or runs a row (R100 to R105). -/
theorem step_opcode_cases {s t : State} (h : step s = .next t) :
    (s.atBoundary = true ∧ t = s.beginStep.halt) ∨
    (s.atBoundary = false ∧ s.readFails s.pc = true ∧ t = s.beginStep.failedRead s.pc) ∨
    (s.atBoundary = false ∧ s.readFails s.pc = false ∧ s.params.optab.lookup (s.byteAt s.pc) = none ∧
      t = (s.beginStep.afterRead s.pc).raise (.decodeFailure (s.byteAt s.pc))) ∨
    (s.atBoundary = false ∧ s.readFails s.pc = false ∧
      ∃ r, s.params.optab.lookup (s.byteAt s.pc) = some r ∧ RowRuns r (s.beginStep.afterRead s.pc) t) := by
  obtain ⟨_, hf⟩ | ⟨_, _, hf⟩ | ⟨_, hb, hf⟩ | ⟨_, hb, hread, hf⟩ | ⟨_, hb, hread, hnone, hf⟩ |
    ⟨_, hb, hread, r, hr, hf⟩ := s.fetch_cases
  · rw [step_of_noStep hf] at h; cases h
  · rw [step_of_noStep hf] at h; cases h
  · rw [step_of_over hf] at h; cases h
    exact .inl ⟨hb, rfl⟩
  · rw [step_of_over hf] at h; cases h
    exact .inr (.inl ⟨hb, hread, rfl⟩)
  · rw [step_of_over hf] at h; cases h
    exact .inr (.inr (.inl ⟨hb, hread, hnone, rfl⟩))
  · refine .inr (.inr (.inr ⟨hb, hread, r, hr, ?_⟩))
    generalize s.beginStep.afterRead s.pc = u at hf ⊢
    cases ho : (u.advance 1).busReadN (operandCount r.mode) (u.pc + 1) with
    | raised v =>
      rw [step_of_over (hf.trans (State.readOperands_of_raised ho))] at h; cases h
      exact .operandReadFails ho
    | ok ops v =>
      rw [step_of_ready (hf.trans (State.readOperands_of_ok ho))] at h
      exact .dispatched ops v ho h

theorem ReadsOnly.goesOn {α : Type} {s : State} {r : Attempt α} (h : ReadsOnly s r) : GoesOn s r.state := by
  obtain ⟨_, _, rfl, ht⟩ | ⟨_, rfl, ht⟩ := h
  · exact ht.proceeds.goesOn
  · exact ht.goesOn

theorem RowRuns.goesOn {r : Row} {u t : State} (h : RowRuns r u t) : GoesOn u t := by
  have hadvance := (proceeds_setPc u (u.pc + BitVec.ofNat 16 1)).goesOn
  have hoperands := hadvance.trans ((u.advance 1).busReadN_readsOnly (operandCount r.mode) (u.pc + 1)).goesOn
  cases h with
  | operandReadFails h => rwa [h] at hoperands
  | dispatched ops v h he =>
    rw [h] at hoperands
    exact hoperands.trans (exec_goesOn he)

/-- R63: a step reads nothing and halts, or the read of the opcode byte comes first. -/
theorem step_halts_or_readsOpcode {s t : State} (h : step s = .next t) :
    t = s.beginStep.halt ∨ GoesOn (s.beginStep.logAccess (.read s.pc)) t := by
  have hread : GoesOn (s.beginStep.logAccess (.read s.pc)) (s.beginStep.afterRead s.pc) := ⟨List.prefix_rfl, id⟩
  obtain ⟨_, rfl⟩ | ⟨_, _, rfl⟩ | ⟨_, _, _, rfl⟩ | ⟨_, _, r, _, hrow⟩ := step_opcode_cases h
  · exact .inl rfl
  · exact .inr (goesOn_raise _ _)
  · exact .inr (hread.trans (goesOn_raise _ _))
  · exact .inr (hread.trans hrow.goesOn)

/-! ### How many accesses a row makes -/

theorem inputReads_consume (o : Operand) (s : State) : inputReads o (s.consume o) = inputReads o s := by
  cases o <;> rfl

/-- R63: a mode without a pointer makes one read, the data byte's, and Immediate none. -/
theorem State.resolveByte_readsAtMost_inputReads (o : Operand) (s : State) :
    ReadsAtMost (inputReads o s).length s (s.resolveByte o) := by
  cases o with
  | implied => exact readsAtMost_raise 0 _ s
  | accumulator => exact readsAtMost_raise 0 _ s
  | relative d => exact readsAtMost_raise 0 _ s
  | immediate v => exact readsAtMost_ok 0 v s
  | indirect w => exact s.resolveByte_readsAtMost _
  | indirectX z => exact s.resolveByte_readsAtMost _
  | indirectY z => exact s.resolveByte_readsAtMost _
  | _ => exact s.busRead_readsAtMost _

theorem execAdc_accesses {o : Operand} {s t : State} (h : execAdc o s = .next t) :
    t.accesses.length ≤ s.accesses.length + (inputReads o s).length := by
  have hreads := (s.consume o).resolveByte_readsAtMost_inputReads o
  rw [inputReads_consume] at hreads
  unfold execAdc withByte at h
  split at h
  · cases h; exact Nat.le_add_right _ _
  · generalize (s.consume o).resolveByte o = r at h hreads
    cases r with
    | ok v u => cases h; exact hreads
    | raised u => cases h; exact hreads

/-- Only ADC reads a data byte: JMP makes at most the two reads of its pointer, every other operation none. -/
theorem exec_accesses_of_ne_adc {i : Instr} {s t : State} (hop : i.operation ≠ .adc) (h : exec i s = .next t) :
    t.accesses.length ≤ s.accesses.length + 2 := by
  cases i with
  | adc o => exact absurd rfl hop
  | jmp o => exact withAddress_accesses (f := State.setPc) (fun _ _ => rfl) h
  | _ o => obtain rfl := Host.Outcome.next.inj h; exact Nat.le_add_right _ _

/-- Of the modes the default table gives ADC, the two with a pointer have one operand byte, not two (R86). -/
theorem operandCount_add_inputReads_le_of_adc {o : Operand} (h : o.mode ∈ Operation.adc.modes) (s : State) :
    operandCount o.mode + (inputReads o s).length ≤ 4 := by
  cases o with
  | indirect w => simp [Operand.mode, Operation.modes] at h
  | _ => simp [inputReads, pointerReads, effectiveAddress, operandCount, Operand.mode]

theorem exec_accesses_of_modes {r : Row} {ops : List Byte} {s t : State} (hmode : r.mode ∈ r.operation.modes)
    (h : exec (r.instr ops) s = .next t) : operandCount r.mode + t.accesses.length ≤ s.accesses.length + 4 := by
  by_cases hop : r.operation = .adc
  · rw [Row.instr, hop] at h
    have hreads := execAdc_accesses h
    have hcount := operandCount_add_inputReads_le_of_adc (o := assemble r.mode ops)
      (by rwa [assemble_mode, ← hop]) s
    rw [assemble_mode] at hcount
    omega
  · have hreads := exec_accesses_of_ne_adc (by rwa [Row.instr_operation]) h
    have hcount := operandCount_le r.mode
    omega

/-- A row whose operation has its mode makes at most four accesses after its opcode byte. -/
theorem RowRuns.accesses_le {r : Row} {u t : State} (hmode : r.mode ∈ r.operation.modes) (h : RowRuns r u t) :
    t.accesses.length ≤ u.accesses.length + 4 := by
  have hcount := operandCount_le r.mode
  have hoperands := (u.advance 1).busReadN_readsAtMost (operandCount r.mode) (u.pc + 1)
  cases h with
  | operandReadFails h =>
    simp only [h, ReadsAtMost, Attempt.state, State.advance_accesses] at hoperands
    omega
  | dispatched ops v h he =>
    have hexec := exec_accesses_of_modes hmode he
    simp only [h, ReadsAtMost, Attempt.state, State.advance_accesses] at hoperands
    omega

theorem step_accesses_le_five {s t : State} (htable : s.params.optab = .standard) (h : step s = .next t) :
    t.accesses.length ≤ 5 := by
  obtain ⟨_, rfl⟩ | ⟨_, _, rfl⟩ | ⟨_, _, _, rfl⟩ | ⟨_, _, r, hr, hrow⟩ := step_opcode_cases h
  · simp
  · simp
  · simp
  · rw [htable] at hr
    exact hrow.accesses_le (standardRows_modes r (findOpcode_mem hr))

/-- Settles O20: every access is a read (R60), their number is bounded row by row (R63), and a step that has not
halted at once goes on from the read of its opcode byte. -/
theorem accessesOfOneStep : Obligations.AccessesOfOneStep := by
  intro s t hrun h
  obtain ⟨reads, hacc⟩ : ∃ reads : List Addr, t.accesses = reads.map .read := by
    obtain ⟨answered, failed, hacc, _⟩ := step_memoryByReads h
    exact ⟨_, hacc⟩
  have hlength : t.accesses.length = reads.length := by rw [hacc, List.length_map]
  refine ⟨reads, hacc, hlength ▸ step_accesses_le_six h, fun htable => hlength ▸ step_accesses_le_five htable h, ?_⟩
  obtain rfl | hgoes := step_halts_or_readsOpcode h
  · have hnone : reads = [] := List.map_eq_nil_iff.mp hacc.symm
    exact ⟨fun _ => hnone, fun hnot => absurd rfl hnot⟩
  · refine ⟨fun hhalt => by simpa [hrun] using hgoes.halted hhalt, fun _ => ?_⟩
    obtain ⟨rest, hrest⟩ := hgoes.accesses
    rw [hacc] at hrest
    cases reads with
    | nil => cases hrest
    | cons a as => cases hrest; rfl

end Sys2Proof.Machine
end

section
/-! PROOFS. The decoder and the encoder are inverse to each other on the default table
(spec/30_encoding.md R81 to R94). -/

namespace Sys2Proof.Machine

/-! ### Instructions, operand forms and their bytes -/

@[simp] theorem lowByte_joinBytes (h l : Byte) : lowByte (joinBytes h l) = l := BitVec.extractLsb'_append_eq_right

@[simp] theorem highByte_joinBytes (h l : Byte) : highByte (joinBytes h l) = h := BitVec.extractLsb'_append_eq_left

@[simp] theorem joinBytes_highByte_lowByte (w : Addr) : joinBytes (highByte w) (lowByte w) = w := by
  rw [joinBytes, highByte, lowByte, BitVec.extractLsb'_append_extractLsb'_eq_extractLsb' (by rfl)]
  exact BitVec.extractLsb'_eq_self

theorem makeInstr_operation_operand (i : Instr) : makeInstr i.operation i.operand = i := by
  cases i <;> rfl

theorem operandBytes_length (o : Operand) : (operandBytes o).length = operandCount o.mode := by
  cases o <;> rfl

/-- R83: the operand bytes keep every bit of an operand form. -/
theorem assemble_operandBytes (o : Operand) : assemble o.mode (operandBytes o) = o := by
  cases o <;> simp [assemble, operandBytes, Operand.mode]

/-- R83: assembly keeps every bit of the bytes a mode takes. -/
theorem operandBytes_assemble (m : Mode) (ops : List Byte) (h : ops.length = operandCount m) :
    operandBytes (assemble m ops) = ops := by
  match m, ops, h with
  | .implied, [], _ | .accumulator, [], _ => rfl
  | .immediate, [_], _ | .relative, [_], _ | .zeroPage, [_], _ | .zeroPageX, [_], _ | .zeroPageY, [_], _
  | .indirectX, [_], _ | .indirectY, [_], _ => rfl
  | .absolute, [_, _], _ | .absoluteX, [_, _], _ | .absoluteY, [_, _], _ | .indirect, [_, _], _ =>
    simp [assemble, operandBytes]

/-! ### The default table -/

theorem findOpcode_opcode {b : Byte} {rows : List Row} {r : Row} (h : findOpcode b rows = some r) :
    r.opcode = b := by
  induction rows with
  | nil => cases h
  | cons x rest ih =>
    rw [findOpcode] at h
    split at h
    · cases h; assumption
    · exact ih h

theorem findOpcode_eq_none_iff (b : Byte) (rows : List Row) :
    findOpcode b rows = none ↔ b ∉ rows.map Row.opcode := by
  induction rows with
  | nil => simp [findOpcode]
  | cons x rest ih =>
    rw [findOpcode]
    split <;> simp_all [eq_comm]

/-- R94: no two rows of the default table have one opcode. -/
theorem standardRows_lookup : ∀ r ∈ standardRows, Optab.standard.lookup r.opcode = some r := by decide +kernel

/-- R94: no two rows of the default table have one operation and mode. -/
theorem standardRows_findPair :
    ∀ r ∈ standardRows, findPair r.operation r.mode standardRows = some r.opcode := by decide +kernel

/-- R86: the default table has a row for each mode of each operation, the converse of `standardRows_modes`. -/
theorem exists_standardRow (op : Operation) :
    ∀ m ∈ op.modes, ∃ r ∈ standardRows, r.operation = op ∧ r.mode = m := by
  cases op <;> decide +kernel

/-- Settles O4: the bytes without a row are those that are no row's opcode, and of the 256 bytes each is either
an opcode or listed. Both lists are compared as numbers, which the kernel compares at once. -/
theorem illegalBytesAreTheListed : Obligations.IllegalBytesAreTheListed := by
  rintro ⟨b⟩
  rw [Optab.lookup, findOpcode_eq_none_iff]
  simp only [← List.mem_map_of_injective BitVec.toNat_injective]
  revert b
  decide +kernel

/-! ### Decoding and encoding -/

/-- Everything `decode` accepts: a row's opcode, the row's operand bytes, and the rest (R80 to R83). -/
theorem decode_eq_ok_iff (t : Optab) (bytes rest : List Byte) (i : Instr) :
    decode t bytes = .ok (i, rest) ↔
      ∃ r ops, t.lookup r.opcode = some r ∧ ops.length = operandCount r.mode ∧
        bytes = r.opcode :: ops ++ rest ∧ i = r.instr ops := by
  constructor
  · intro h
    cases bytes with
    | nil => cases h
    | cons b tail =>
      simp only [decode] at h
      split at h
      · cases h
      next r hr =>
        obtain rfl := findOpcode_opcode hr
        split at h
        · cases h
        next hlen =>
          cases h
          exact ⟨r, _, hr, List.length_take_of_le (Nat.le_of_not_lt hlen), by simp, rfl⟩
  · rintro ⟨r, ops, hr, hlen, rfl, rfl⟩
    simp [decode, hr, ← hlen]

/-- R92: encoding writes the row's opcode and the operand bytes the instruction was assembled from. -/
theorem encode_row_instr {r : Row} (hr : r ∈ standardRows) {ops : List Byte}
    (hlen : ops.length = operandCount r.mode) : encode (r.instr ops) = some (r.opcode :: ops) := by
  simp [encode, Row.instr_operation, Row.instr_operand, assemble_mode, standardRows_findPair r hr,
    operandBytes_assemble r.mode ops hlen]

/-- R86: a well-formed instruction is one a row of the default table gives from its operand bytes. -/
theorem exists_row_of_wellFormed {i : Instr} (h : i.wellFormed = true) :
    ∃ r ∈ standardRows, ∃ ops, ops.length = operandCount r.mode ∧ i = r.instr ops := by
  obtain ⟨r, hr, hop, hmode⟩ := exists_standardRow i.operation i.operand.mode (List.contains_iff_mem.mp h)
  refine ⟨r, hr, operandBytes i.operand, hmode ▸ operandBytes_length i.operand, ?_⟩
  rw [Row.instr, hop, hmode, assemble_operandBytes, makeInstr_operation_operand]

/-- Settles O2: the instruction is a row's, so its encoding is what `decode` takes back to that row. -/
theorem encodedInstructionsDecodeBack : Obligations.EncodedInstructionsDecodeBack := by
  intro i rest h
  obtain ⟨r, hr, ops, hlen, rfl⟩ := exists_row_of_wellFormed h
  exact ⟨r.opcode :: ops, encode_row_instr hr hlen,
    (decode_eq_ok_iff ..).mpr ⟨r, ops, standardRows_lookup r hr, hlen, rfl, rfl⟩⟩

/-- Settles O3: what decodes is a row's opcode and operand bytes, which the row's instruction is encoded to. -/
theorem decodedBytesEncodeBack : Obligations.DecodedBytesEncodeBack := by
  intro bytes rest i h
  obtain ⟨r, ops, hlookup, hlen, rfl, rfl⟩ := (decode_eq_ok_iff ..).mp h
  have hr : r ∈ standardRows := findOpcode_mem hlookup
  refine ⟨?_, r.opcode :: ops, encode_row_instr hr hlen, rfl⟩
  rw [Instr.wellFormed, Row.instr_operation, Row.instr_operand, assemble_mode]
  exact List.contains_iff_mem.mpr (standardRows_modes r hr)

/-- Settles O1: each of the fixed words is evaluated by the decoder. -/
theorem specWordsDecode : Obligations.SpecWordsDecode := by
  unfold Obligations.SpecWordsDecode
  decide

end Sys2Proof.Machine
end

section
/-! PROOFS. A loaded image is what memory holds and what reads without failure or side effect answer
(spec/20_memory.md R59, R62, R68, spec/30_encoding.md R81). -/

namespace Sys2Proof.Machine

/-! ### Loading an image -/

theorem Memory.read_load_other (m : Memory) (a b : Addr) (bytes : List Byte)
    (h : b ∉ addressesFrom bytes.length a) : (m.load a bytes).read b.toNat = m.read b.toNat := by
  induction bytes generalizing m a with
  | nil => rfl
  | cons v rest ih =>
    obtain ⟨hne, hrest⟩ := not_or.mp (List.mem_cons.not.mp h)
    rw [Memory.load, ih _ _ hrest, Memory.read_write_other]
    exact fun e => hne (BitVec.eq_of_toNat_eq e)

/-- An image that does not wrap onto itself is read back whole: no later byte overwrites an earlier one. -/
theorem Memory.map_read_load (m : Memory) (a : Addr) (bytes : List Byte) (hwf : m.wf = true)
    (hdistinct : (addressesFrom bytes.length a).Nodup) :
    (addressesFrom bytes.length a).map (fun b => (m.load a bytes).read b.toNat) = bytes := by
  induction bytes generalizing m a with
  | nil => rfl
  | cons v rest ih =>
    obtain ⟨hfirst, hrest⟩ := List.nodup_cons.mp hdistinct
    have hhead : ((m.write a.toNat v).load (a + 1) rest).read a.toNat = v := by
      rw [Memory.read_load_other _ _ _ _ hfirst]
      exact Memory.read_write_same m 0 a.toNat v hwf
    exact List.cons_eq_cons.mpr ⟨hhead, ih _ _ (Memory.write_wf m a v hwf) hrest⟩

theorem addressesFrom_three (a : Addr) : addressesFrom 3 a = [a, a + 1, a + 2] := by
  simp [addressesFrom, BitVec.add_assoc]

theorem addressesFrom_three_nodup (a : Addr) : (addressesFrom 3 a).Nodup := by
  simp [addressesFrom_three]

/-! ### Reading it back -/

theorem State.bytesRead_flat (s : State) (as : List Addr) (h : s.params.platform.readEffects = []) :
    s.bytesRead as = as.map s.byteAt := by
  induction as generalizing s with
  | nil => rfl
  | cons a rest ih =>
    rw [State.bytesRead, ih (s.afterRead a) h, State.afterRead_flat s a h]
    rfl

/-- R59: without a failure or a side effect the bytes memory holds are answered, and memory stays as it is. -/
theorem State.busReadN_flat (s : State) (n : Nat) (a : Addr) (hflat : s.params.platform.readEffects = [])
    (hread : s.readable (addressesFrom n a) = true) :
    ∃ u, s.busReadN n a = .ok ((addressesFrom n a).map s.byteAt) u ∧ u.mem = s.mem := by
  refine ⟨s.afterReads (addressesFrom n a), ?_, s.afterReads_flat_mem _ hflat⟩
  rw [← s.bytesRead_flat _ hflat]
  exact s.busReadN_ok n a (by simpa [State.readable] using hread)

/-- The three bytes from `PC` of a state with a placed word (log 24). -/
theorem State.withFetchWord_bytes (s : State) (nbits w : Nat) (hwf : s.mem.wf = true) :
    (addressesFrom 3 s.pc).map (s.withFetchWord nbits w).byteAt = tableWordBytes nbits w :=
  Memory.map_read_load s.mem s.pc (tableWordBytes nbits w) hwf (addressesFrom_three_nodup s.pc)

/-- Settles O21: the placed word is a loaded image of three bytes, and placing writes memory only. -/
theorem placedWordIsFetched : Obligations.PlacedWordIsFetched := by
  intro s nbits w hwf t
  have hbytes : (addressesFrom 3 s.pc).map t.byteAt = tableWordBytes nbits w := s.withFetchWord_bytes nbits w hwf
  refine ⟨?_, Memory.load_wf _ _ _ hwf, rfl, fun hflat hread => ?_⟩
  · rw [addressesFrom_three] at hbytes
    exact hbytes
  · rw [← hbytes]
    exact t.busReadN_flat 3 s.pc hflat hread

end Sys2Proof.Machine
end

section
/-! PROOFS. What each addressing mode answers: its fault, its effective address after the pointer reads, or its input
byte (spec/40_step_and_addressing.md R106 to R129). -/

namespace Sys2Proof.Machine

/-! ### Requests a mode cannot answer -/

theorem State.resolveByte_of_byteFault {o : Operand} {k : FaultKind} (s : State) (h : byteFault o = some k) :
    s.resolveByte o = .raised (s.raise k) := by
  simp [State.resolveByte, h]

theorem State.resolveAddress_of_addressFault {o : Operand} {k : FaultKind} (s : State) (h : addressFault o = some k) :
    s.resolveAddress o = .raised (s.raise k) := by
  cases o <;> cases h <;> rfl

theorem withByte_of_byteFault {o : Operand} {k : FaultKind} (s : State) (f : Byte → State → State)
    (h : byteFault o = some k) : withByte o s f = .next (s.raise k) := by
  simp [withByte, h]

theorem withAddress_of_addressFault {o : Operand} {k : FaultKind} (s : State) (f : Addr → State → State)
    (h : addressFault o = some k) : withAddress o s f = .next (s.raise k) := by
  simp [withAddress, h]

/-- Settles O11: byte and address requests fail where the mode's fault table says so, and the four other requests
are answered as they stand. -/
theorem impossibleRequestsFail : Obligations.ImpossibleRequestsFail := fun s _ _ =>
  ⟨s.resolveByte_of_byteFault rfl, s.resolveByte_of_byteFault rfl, s.resolveByte_of_byteFault rfl, rfl,
    s.resolveAddress_of_addressFault rfl, s.resolveAddress_of_addressFault rfl,
    s.resolveAddress_of_addressFault rfl, s.resolveAddress_of_addressFault rfl, rfl, rfl, rfl, rfl⟩

/-- Settles O30: ADC is an operation with a byte input and JMP one with an address input, and either raises the
mode's fault before it consumes the operands. -/
theorem modesWithoutAnAnswerTrap : Obligations.ModesWithoutAnAnswerTrap := by
  intro s d v
  have hadc (o : Operand) (k : FaultKind) (h : byteFault o = some k) : exec (.adc o) s = .next (s.raise k) :=
    withByte_of_byteFault s State.addWithCarry h
  have hjmp (o : Operand) (k : FaultKind) (h : addressFault o = some k) : exec (.jmp o) s = .next (s.raise k) :=
    withAddress_of_addressFault s State.setPc h
  simp only [List.forall_mem_cons]
  exact ⟨hadc _ _ rfl, hadc _ _ rfl, hadc _ _ rfl, hjmp _ _ rfl, hjmp _ _ rfl, hjmp _ _ rfl, hjmp _ _ rfl,
    List.forall_mem_nil _⟩

/-! ### Effective addresses -/

theorem State.readable_iff (s : State) (as : List Addr) :
    s.readable as = true ↔ ∀ a ∈ as, s.readFails a = false := by
  simp [State.readable]

theorem State.readable_pair_iff (s : State) (a b : Addr) :
    s.readable [a, b] = true ↔ s.readFails a = false ∧ s.readFails b = false := by
  simp [State.readable_iff]

theorem State.busReadZP_of_readable {z : Byte} {s : State}
    (h : s.readable [0x00#8 ++ z, 0x00#8 ++ (z + 1)] = true) :
    s.busReadZP z = .ok (s.wordRead (0x00#8 ++ z) (0x00#8 ++ (z + 1)))
      (s.afterReads [0x00#8 ++ z, 0x00#8 ++ (z + 1)]) := by
  simp only [← zext16_eq] at h ⊢
  obtain ⟨hlo, hhi⟩ := (s.readable_pair_iff _ _).mp h
  exact s.busReadZP_ok z hlo hhi

/-- A mode with an effective address answers it after its pointer reads, where none of them fails (R126). -/
theorem State.resolveAddress_ok {o : Operand} {s : State} {ea : Addr} (hea : effectiveAddress o s = some ea)
    (hread : s.readable (pointerReads o s) = true) :
    s.resolveAddress o = .ok ea (s.afterReads (pointerReads o s)) := by
  cases o with
  | implied | accumulator | immediate v | relative d => cases hea
  | absolute w => cases hea; rfl
  | zeroPage z | zeroPageX z | zeroPageY z | absoluteX w | absoluteY w =>
    cases hea
    simp only [← zext16_eq]
    rfl
  | indirect w =>
    cases hea
    obtain ⟨hlo, hhi⟩ := (s.readable_pair_iff _ _).mp hread
    simp only [State.resolveAddress, State.resolveLocation, s.busRead16_ok w hlo hhi]
    rfl
  | indirectX z =>
    cases hea
    simp only [State.resolveAddress, State.resolveLocation, State.busReadZP_of_readable hread]
    rfl
  | indirectY z =>
    cases hea
    simp only [State.resolveAddress, State.resolveLocation, State.busReadZP_of_readable hread, zext16_eq]
    rfl

/-- Settles O8: each is a mode's effective address, with no pointer read but IndirectX's two. -/
theorem plainAndIndexedXAddresses : Obligations.PlainAndIndexedXAddresses := fun _ z _ =>
  ⟨State.resolveAddress_ok rfl rfl, State.resolveAddress_ok rfl rfl, State.resolveAddress_ok rfl rfl,
    fun _ _ => rfl, State.resolveAddress_ok (o := .indirectX z) rfl⟩

/-- Settles O9: each is a mode's effective address, with no pointer read but the two of Indirect and IndirectY. -/
theorem wrappingAndIndirectAddresses : Obligations.WrappingAndIndirectAddresses := fun _ z w =>
  ⟨State.resolveAddress_ok rfl rfl, State.resolveAddress_ok rfl rfl, State.resolveAddress_ok rfl rfl,
    State.resolveAddress_ok (o := .indirect w) rfl, State.resolveAddress_ok (o := .indirectY z) rfl⟩

/-! ### The zero-page law -/

@[simp] theorem highByte_zext16 (b : Byte) : highByte (zext16 b) = 0 := by
  rw [zext16_eq]
  exact highByte_joinBytes 0 b

/-- The piece, run from `s`, reads addresses of page 0 only, the failing one too. -/
def ReadsPageZero {α : Type} (s : State) (r : Attempt α) : Prop :=
  ∃ reads : List Addr, (∀ a ∈ reads, highByte a = 0) ∧
    ((∃ v, r = .ok v (s.afterReads reads)) ∨
      ∃ a, r = .raised ((s.afterReads reads).failedRead a) ∧ highByte a = 0)

theorem ReadsPageZero.map {α β : Type} {s : State} {r : Attempt α} (h : ReadsPageZero s r) (g : α → β) :
    ReadsPageZero s (r.andThen fun v t => .ok (g v) t) := by
  obtain ⟨reads, hreads, ⟨v, rfl⟩ | ⟨a, rfl, ha⟩⟩ := h
  · exact ⟨reads, hreads, .inl ⟨g v, rfl⟩⟩
  · exact ⟨reads, hreads, .inr ⟨a, rfl, ha⟩⟩

/-- R58: a zero-page pointer read fails at its low byte, or at its high byte, or answers both. -/
theorem State.busReadZP_readsPageZero (z : Byte) (s : State) : ReadsPageZero s (s.busReadZP z) := by
  have h := zeroPagePointerReadsStayInPageZero z s
  simp only [← zext16_eq] at h
  rw [h]
  split
  · exact ⟨[], by simp, .inr ⟨zext16 z, rfl, by simp⟩⟩
  · split
    · exact ⟨[zext16 z], by simp, .inr ⟨zext16 (z + 1), rfl, by simp⟩⟩
    · exact ⟨[zext16 z, zext16 (z + 1)], by simp, .inl ⟨_, rfl⟩⟩

theorem State.resolveAddress_indirectX_readsPageZero (z : Byte) (s : State) :
    ReadsPageZero s (s.resolveAddress (.indirectX z)) := by
  simp only [State.resolveAddress, State.resolveLocation, Attempt.andThen_assoc]
  exact (s.busReadZP_readsPageZero (z + s.x)).map id

theorem State.resolveAddress_indirectY_readsPageZero (z : Byte) (s : State) :
    ReadsPageZero s (s.resolveAddress (.indirectY z)) := by
  simp only [State.resolveAddress, State.resolveLocation, Attempt.andThen_assoc]
  exact (s.busReadZP_readsPageZero z).map (· + zext16 s.y)

/-- Settles O10: an indexed zero-page address is a byte under a zero high byte, and both indirect modes read their
pointer by `MemReadZP`. -/
theorem zeroPageNeverEscapes : Obligations.ZeroPageNeverEscapes := by
  intro s z
  refine ⟨fun ea t h => ?_, fun ea t h => ?_, ?_⟩
  · cases h
    exact highByte_zext16 (z + s.x)
  · cases h
    exact highByte_zext16 (z + s.y)
  · simp only [List.forall_mem_cons]
    exact ⟨s.resolveAddress_indirectX_readsPageZero z, s.resolveAddress_indirectY_readsPageZero z,
      List.forall_mem_nil _⟩

end Sys2Proof.Machine
end

section
/-! PROOFS. The step before dispatch: the halt check, the fetch, and the operand read, which answers its bytes or ends
the step at the first that fails (spec/40_step_and_addressing.md R100 to R105). -/

namespace Sys2Proof.Machine

/-! ### The halt check -/

theorem State.atBoundary_iff (s : State) :
    s.atBoundary = true ↔ s.params.haltEnable = true ∧ s.params.haltBoundary.toNat ≤ s.pc.toNat := by
  simp [State.atBoundary, BitVec.ule]

theorem step_of_atBoundary {s : State} (hrun : s.run = .running) (hb : s.atBoundary = true) :
    step s = .next s.beginStep.halt :=
  step_of_over (by simp only [State.fetch, hrun, hb, if_true])

/-- Settles O13: the compare of the halt check is one of numbers, and where it holds the step only halts. -/
theorem boundaryStepHalts : Obligations.BoundaryStepHalts := fun s hrun henable hpc =>
  step_of_atBoundary hrun (s.atBoundary_iff.mpr ⟨henable, hpc⟩)

/-- Settles O14: where the halt check fails the step ends in a fault, or runs a row, which does not halt. -/
theorem haltedOnlyAtTheBoundary : Obligations.HaltedOnlyAtTheBoundary := by
  intro s t hrun h
  rw [← s.atBoundary_iff]
  obtain ⟨hb, rfl⟩ | ⟨hb, _, rfl⟩ | ⟨hb, _, _, rfl⟩ | ⟨hb, _, r, _, hrow⟩ := step_opcode_cases h
  · simp [hb]
  · simp [hb]
  · simp [hb]
  · have hnot : t.run ≠ .halted := fun ht => by simpa [hrun] using hrow.goesOn.halted ht
    simp [hb, hnot]

/-! ### The fetch -/

section
variable {s : State} (hrun : s.run = .running) (hb : s.atBoundary = false)
include hrun hb

theorem step_of_fetch_fails (hread : s.readFails s.pc = true) : step s = .next (s.beginStep.failedRead s.pc) :=
  step_of_over (by simpa [hrun, hb, hread] using s.fetch_cases)

theorem step_of_unknown_opcode (hread : s.readFails s.pc = false)
    (hnone : s.params.optab.lookup (s.byteAt s.pc) = none) :
    step s = .next ((s.beginStep.afterRead s.pc).raise (.decodeFailure (s.byteAt s.pc))) :=
  step_of_over (by simpa [hrun, hb, hread, hnone] using s.fetch_cases)

theorem State.fetch_of_row {r : Row} (hread : s.readFails s.pc = false)
    (hr : s.params.optab.lookup (s.byteAt s.pc) = some r) :
    s.fetch = (s.beginStep.afterRead s.pc).readOperands r := by
  simpa [hrun, hb, hread, hr] using s.fetch_cases

end

/-- Settles O16: a failed fetch only records the read and faults, an answered one leaves `State.afterRead`. -/
theorem failedFetchChangesNoRegister : Obligations.FailedFetchChangesNoRegister := fun s hrun hb =>
  ⟨fun hread => ⟨_, step_of_fetch_fails hrun hb hread, by simp, by simp [SameRegisters]⟩,
    fun hread => ⟨_, s.beginStep.busRead_ok s.pc hread, by simp [hrun], by simp [SameRegisters]⟩⟩

/-- Settles O17: a byte that is no row's opcode is not found, and the fault is raised after the one read. -/
theorem unknownOpcodeLeavesPcAtTheByte : Obligations.UnknownOpcodeLeavesPcAtTheByte := by
  intro s hrun hb hread hrows
  have hnone : s.params.optab.lookup (s.byteAt s.pc) = none := by
    simpa [Optab.lookup, findOpcode_eq_none_iff] using hrows
  exact ⟨_, step_of_unknown_opcode hrun hb hread hnone, by simp, by simp [SameRegisters]⟩

/-! ### The operand read -/

/-- Reads do not look at `PC`. -/
theorem State.afterReads_setPc (s : State) (w : Addr) (as : List Addr) :
    (s.setPc w).afterReads as = (s.afterReads as).setPc w := by
  induction as generalizing s with
  | nil => rfl
  | cons a rest ih => exact ih (s.afterRead a)

theorem State.bytesRead_setPc (s : State) (w : Addr) (as : List Addr) :
    (s.setPc w).bytesRead as = s.bytesRead as := by
  induction as generalizing s with
  | nil => rfl
  | cons a rest ih => exact congrArg (s.byteAt a :: ·) (ih (s.afterRead a))

@[simp] theorem State.bytesRead_length (s : State) (as : List Addr) : (s.bytesRead as).length = as.length := by
  induction as generalizing s with
  | nil => rfl
  | cons a rest ih => exact congrArg (· + 1) (ih (s.afterRead a))

@[simp] theorem addressesFrom_length (n : Nat) (a : Addr) : (addressesFrom n a).length = n := by
  induction n generalizing a with
  | zero => rfl
  | succ n ih => exact congrArg (· + 1) (ih (a + 1))

theorem State.readable_addressesFrom_succ (s : State) (n : Nat) (a : Addr) :
    s.readable (addressesFrom (n + 1) a) = true ↔
      s.readFails a = false ∧ s.readable (addressesFrom n (a + 1)) = true := by
  simp [addressesFrom, State.readable_cons]

/-- R59, R61: of `n` ascending reads the first that fails ends the piece, after those before it. -/
theorem State.busReadN_fails {n k : Nat} {a : Addr} {s : State} (hk : k < n)
    (hread : s.readable (addressesFrom k a) = true) (hfail : s.readFails (a + BitVec.ofNat 16 k) = true) :
    s.busReadN n a =
      .raised ((s.afterReads (addressesFrom k a)).failedRead (a + BitVec.ofNat 16 k)) := by
  induction k generalizing n a s with
  | zero =>
    obtain ⟨n, rfl⟩ := Nat.exists_eq_add_one_of_ne_zero (Nat.ne_zero_of_lt hk)
    simp only [BitVec.add_zero] at hfail ⊢
    simp [State.busReadN, s.busRead_fails a hfail, Attempt.andThen, addressesFrom]
  | succ k ih =>
    obtain ⟨n, rfl⟩ := Nat.exists_eq_add_one_of_ne_zero (Nat.ne_zero_of_lt hk)
    have hnext : a + BitVec.ofNat 16 (k + 1) = a + 1 + BitVec.ofNat 16 k := by
      rw [BitVec.add_assoc, Nat.add_comm k 1, BitVec.ofNat_add]
      rfl
    obtain ⟨hfirst, hrest⟩ := (s.readable_addressesFrom_succ k a).mp hread
    rw [hnext] at hfail ⊢
    simp only [State.busReadN, s.busRead_ok a hfirst, Attempt.andThen,
      ih (Nat.lt_of_succ_lt_succ hk) (s := s.afterRead a) hrest hfail]
    rfl

/-- R104: the operand read ends the step at the first operand byte that fails, with `PC` past the opcode byte. -/
theorem State.readOperands_fails {r : Row} {k : Nat} {s : State} (hk : k < operandCount r.mode)
    (hread : s.readable (addressesFrom k (s.pc + 1)) = true)
    (hfail : s.readFails (s.pc + 1 + BitVec.ofNat 16 k) = true) :
    s.readOperands r = .over (((s.afterReads (addressesFrom k (s.pc + 1))).failedRead
      (s.pc + 1 + BitVec.ofNat 16 k)).setPc (s.pc + 1)) := by
  refine State.readOperands_of_raised ((State.busReadN_fails (s := s.advance 1) hk hread hfail).trans ?_)
  rw [State.advance, State.afterReads_setPc]
  rfl

/-- R103, R104: the operand read answers the row's instruction, with `PC` past the opcode byte. -/
theorem State.readOperands_ok {r : Row} {s : State}
    (hread : s.readable (addressesFrom (operandCount r.mode) (s.pc + 1)) = true) :
    s.readOperands r = .ready (r.instr (s.bytesRead (addressesFrom (operandCount r.mode) (s.pc + 1))))
      ((s.afterReads (addressesFrom (operandCount r.mode) (s.pc + 1))).setPc (s.pc + 1)) := by
  refine State.readOperands_of_ok (((s.advance 1).busReadN_ok _ _ ((s.readable_iff _).mp hread)).trans ?_)
  rw [State.advance, State.afterReads_setPc, State.bytesRead_setPc]
  rfl

/-- Settles O18: the opcode byte is read, and of the operand reads the failing one is the first that fails. -/
theorem operandReadFailureStopsPastTheOpcode : Obligations.OperandReadFailureStopsPastTheOpcode := by
  intro s r k hrun hb hr hk hread hfail
  obtain ⟨hopcode, hoperands⟩ := (s.readable_addressesFrom_succ k s.pc).mp hread
  exact step_of_over ((State.fetch_of_row hrun hb hopcode hr).trans
    (State.readOperands_fails (s := s.beginStep.afterRead s.pc) hk hoperands hfail))

/-! ### Dispatch -/

/-- R101 to R105: a row whose bytes can be read is dispatched with its operand, `PC` past the opcode byte. -/
theorem step_of_row {s : State} {r : Row} (hrun : s.run = .running) (hb : s.atBoundary = false)
    (hr : s.params.optab.lookup (s.byteAt s.pc) = some r)
    (hread : s.readable (addressesFrom r.length s.pc) = true) :
    step s = exec (makeInstr r.operation (s.operandAt r)) ((s.afterFetch r).setPc (s.pc + 1)) := by
  have hlen : r.length = operandCount r.mode + 1 := Nat.add_comm ..
  rw [hlen] at hread
  obtain ⟨hopcode, hoperands⟩ := (s.readable_addressesFrom_succ _ s.pc).mp hread
  rw [State.operandAt, State.afterFetch, hlen]
  exact step_of_ready ((State.fetch_of_row hrun hb hopcode hr).trans
    (State.readOperands_ok (s := s.beginStep.afterRead s.pc) hoperands))

/-- Settles O12: the bytes decode to a row's instruction and are as many as the row's length, so they are the bytes
the step reads. -/
theorem stepRunsDecodedInstruction : Obligations.StepRunsDecodedInstruction := by
  intro s i n hrun hb hdecode hread
  obtain ⟨r, ops, hr, hlen, hbytes, rfl⟩ := (decode_eq_ok_iff ..).mp hdecode
  rw [List.append_nil] at hbytes
  have hn : n = r.length := by
    have h := congrArg List.length hbytes
    simp only [State.bytesRead_length, addressesFrom_length, List.length_cons, hlen] at h
    rw [h, Row.length, Nat.add_comm]
  subst hn
  have hopcode : s.byteAt s.pc = r.opcode := by
    rw [Row.length, Nat.add_comm] at hbytes
    exact (List.cons.inj hbytes).1
  have hoperand : s.operandAt r = assemble r.mode ops := by rw [State.operandAt, hbytes, List.tail_cons]
  rw [step_of_row hrun hb (hopcode ▸ hr) hread, hoperand]
  rfl

end Sys2Proof.Machine
end

section
/-! PROOFS. On a platform that fails no read, an operation that a default row implements goes on Running
(spec/40_step_and_addressing.md R106, R107, R113). -/

namespace Sys2Proof.Machine

/-! ### Inputs that are answered -/

theorem effectiveAddress_isSome (o : Operand) (s : State) :
    (effectiveAddress o s).isSome = (addressFault o).isNone := by
  cases o <;> rfl

theorem inputByte_isSome (o : Operand) (s : State) : (inputByte o s).isSome = (byteFault o).isNone := by
  cases o <;> rfl

theorem inputByte_of_effectiveAddress {o : Operand} {s : State} {ea : Addr} (h : effectiveAddress o s = some ea) :
    inputByte o s = some ((s.afterReads (pointerReads o s)).byteAt ea) := by
  cases o <;> cases h <;> rfl

theorem inputReads_of_effectiveAddress {o : Operand} {s : State} {ea : Addr} (h : effectiveAddress o s = some ea) :
    inputReads o s = pointerReads o s ++ [ea] := by
  rw [inputReads, h]
  rfl

theorem State.resolveByte_of_addressFault_eq_none {o : Operand} (s : State) (h : addressFault o = none) :
    s.resolveByte o = (s.resolveAddress o).andThen fun ea t => t.busRead ea := by
  cases o <;> cases h <;> rfl

/-- A mode with an input byte answers it after its reads, where none of them fails (R111). -/
theorem State.resolveByte_ok {o : Operand} {s : State} {i : Byte} (hi : inputByte o s = some i)
    (hread : s.readable (inputReads o s) = true) : s.resolveByte o = .ok i (s.afterReads (inputReads o s)) := by
  have hbyte : byteFault o = none := by simpa [hi] using inputByte_isSome o s
  obtain ⟨v, rfl⟩ | haddr := addressFault_of_byteFault o hbyte
  · cases hi
    rfl
  · obtain ⟨ea, hea⟩ := Option.isSome_iff_exists.mp ((effectiveAddress_isSome o s).trans (by rw [haddr]; rfl))
    rw [inputByte_of_effectiveAddress hea] at hi
    rw [inputReads_of_effectiveAddress hea] at hread ⊢
    obtain ⟨hpointer, hdata⟩ : s.readable (pointerReads o s) = true ∧ s.readFails ea = false := by
      simpa [State.readable] using hread
    cases hi
    rw [s.resolveByte_of_addressFault_eq_none haddr, State.resolveAddress_ok hea hpointer, ← State.afterReads_append]
    exact State.busRead_ok ea _ (by simpa using hdata)

/-! ### Execution with an input that is answered -/

theorem inputByte_consume (o : Operand) (s : State) : inputByte o (s.consume o) = inputByte o s := by
  cases o <;> rfl

theorem effectiveAddress_consume (o : Operand) (s : State) :
    effectiveAddress o (s.consume o) = effectiveAddress o s := by
  cases o <;> rfl

theorem pointerReads_consume (o : Operand) (s : State) : pointerReads o (s.consume o) = pointerReads o s := by
  cases o <;> rfl

/-- R106: the operands consumed and the input read, `f` is applied. -/
theorem withByte_ok {o : Operand} {s : State} {i : Byte} (hi : inputByte o s = some i)
    (hread : s.readable (inputReads o s) = true) (f : Byte → State → State) :
    withByte o s f = .next (f i ((s.consume o).afterReads (inputReads o s))) := by
  have hbyte : byteFault o = none := by simpa [hi] using inputByte_isSome o s
  have hr := State.resolveByte_ok ((inputByte_consume o s).trans hi) (by rwa [inputReads_consume])
  rw [inputReads_consume] at hr
  simp only [withByte, hbyte, hr]

/-- R106: the operands consumed and the pointer read, `f` is applied. -/
theorem withAddress_ok {o : Operand} {s : State} {ea : Addr} (hea : effectiveAddress o s = some ea)
    (hread : s.readable (pointerReads o s) = true) (f : Addr → State → State) :
    withAddress o s f = .next (f ea ((s.consume o).afterReads (pointerReads o s))) := by
  have haddr : addressFault o = none := by simpa [hea] using effectiveAddress_isSome o s
  have hr := State.resolveAddress_ok ((effectiveAddress_consume o s).trans hea) (by rwa [pointerReads_consume])
  rw [pointerReads_consume] at hr
  simp only [withAddress, haddr, hr]

@[simp] theorem State.afterReads_run (s : State) (as : List Addr) : (s.afterReads as).run = s.run := by
  rw [State.afterReads_eq]

/-- R105 to R107: an implemented instruction whose mode gives its input, and whose reads do not fail, leaves `RUN`. -/
theorem exec_keeps_run {i : Instr} {s : State} (himpl : i.operation.implemented = true)
    (hfirst : ∀ k, ¬ FirstFault i.operation i.operand k) (hread : ∀ as, s.readable as = true) :
    ∃ t, exec i s = .next t ∧ t.run = s.run := by
  cases i with
  | adc o =>
    have hbyte : byteFault o = none :=
      Option.eq_none_iff_forall_ne_some.mpr fun k hk => hfirst k (.inr (.inl ⟨rfl, hk⟩))
    obtain ⟨v, hv⟩ := Option.isSome_iff_exists.mp ((inputByte_isSome o s).trans (by rw [hbyte]; rfl))
    exact ⟨_, withByte_ok hv (hread _) State.addWithCarry, State.afterReads_run (s.consume o) _⟩
  | jmp o =>
    have haddr : addressFault o = none :=
      Option.eq_none_iff_forall_ne_some.mpr fun k hk => hfirst k (.inr (.inr ⟨rfl, hk⟩))
    obtain ⟨ea, hea⟩ := Option.isSome_iff_exists.mp ((effectiveAddress_isSome o s).trans (by rw [haddr]; rfl))
    exact ⟨_, withAddress_ok hea (hread _) State.setPc, State.afterReads_run (s.consume o) _⟩
  | clc o | cld o | cli o | clv o | sec o | sed o | sei o | tax o | tay o | txa o | tya o | inx o | iny o | nop o =>
    exact ⟨_, rfl, rfl⟩
  | _ o => cases himpl

/-! ### The default table -/

/-- R113: under the default table an implemented operation is given a mode that answers it. -/
theorem not_firstFault_of_standard {b : Byte} {r : Row} {ops : List Byte} (hr : Optab.standard.lookup b = some r)
    (himpl : r.operation.implemented = true) (k : FaultKind) :
    ¬ FirstFault r.operation (assemble r.mode ops) k := by
  intro hk
  obtain rfl := hk.unimplemented_of_standard hr
  obtain ⟨hnot, _⟩ | ⟨_, hbyte⟩ | ⟨_, haddr⟩ := hk
  · simp [himpl] at hnot
  · cases (byteFault_eq_some _ _ hbyte).1
  · obtain ⟨⟨q, hq⟩, _⟩ := addressFault_eq_some _ _ haddr
    cases hq

theorem State.readable_of_readFails_eq_nil {s : State} (h : s.params.platform.readFails = []) (as : List Addr) :
    s.readable as = true := by
  simp [State.readable, State.readFails, Platform.failsRead, h]

/-- Settles O41: every byte of the row is read, its mode gives the operation's input, and no read of it fails. -/
theorem implementedInstructionsNeverFaultOnFlatMemory :
    Obligations.ImplementedInstructionsNeverFaultOnFlatMemory := by
  intro s r hrun hb htable hflat hr himpl
  let u := (s.afterFetch r).setPc (s.pc + 1)
  have hparams : u.params = s.params := State.afterReads_params s.beginStep _
  have hurun : u.run = .running := (State.afterReads_run s.beginStep _).trans hrun
  rw [step_of_row hrun hb hr (State.readable_of_readFails_eq_nil hflat _), ← hurun]
  rw [htable] at hr
  refine exec_keeps_run (i := r.instr _) ?_ ?_ (State.readable_of_readFails_eq_nil (hparams ▸ hflat))
  · rwa [Row.instr_operation]
  · rw [Row.instr_operation, Row.instr_operand]
    exact not_firstFault_of_standard hr himpl

end Sys2Proof.Machine
end

section
/-! PROOFS. ADC: its sum and its two simplified flag tests against the exact sums, and what execution in every form makes
of them (spec/41_arithmetic_adc.md R140 to R143). -/

namespace Sys2Proof.Machine

/-! ### The sum and the two tests -/

theorem adcSum_toNat (a i : Byte) (c : Bool) : (adcSum a i c).toNat = (a.toNat + i.toNat + c.toNat) % 256 := by
  cases c <;> simp [adcSum]

theorem adcCarry_eq_decide (i r : Byte) : adcCarry i r = decide (r.toNat < i.toNat) := rfl

theorem adcOverflow_eq_decide (a r : Byte) : adcOverflow a r = decide (a.msb ≠ r.msb) := by
  rw [Bool.eq_iff_iff, decide_eq_true_iff]
  exact bne_iff_ne

/-- R141: a sum that wraps without a carry in ends at `i + (a - 256)`, with one at `i + (a + 1 - 256)`: below the input
unless `a` is 0xFF and the carry in is 1. -/
theorem adcCarry_adcSum (a i : Byte) (c : Bool) :
    adcCarry i (adcSum a i c) = decide (256 ≤ a.toNat + i.toNat + c.toNat ∧ ¬(c = true ∧ a = 0xFF)) := by
  have ha := a.isLt
  have hFF : a = 0xFF ↔ a.toNat = 255 := BitVec.toNat_inj.symm
  rw [adcCarry_eq_decide, adcSum_toNat, decide_eq_decide, hFF]
  cases c with
  | false => simp only [Bool.toNat_false, Bool.false_eq_true, false_and, not_false_iff, and_true]; omega
  | true => simp only [Bool.toNat_true, true_and]; omega

/-- Settles O34: in the exceptional case the true carry is 1, so the two differ there and only there. -/
theorem carryIsWrongOnlyAtFFWithCarryIn : Obligations.CarryIsWrongOnlyAtFFWithCarryIn := by
  intro a i c
  have htrue (h : c = true ∧ a = 0xFF) : 256 ≤ a.toNat + i.toNat + c.toNat := by
    obtain ⟨rfl, rfl⟩ := h
    simp
  rw [adcCarry_adcSum, decide_eq_decide]
  exact ⟨⟨fun h hex => (h.mpr (htrue hex)).2 hex, fun hex => and_iff_left hex⟩,
    fun hc ha => ⟨htrue ⟨hc, ha⟩, decide_eq_false fun h => h.2 ⟨hc, ha⟩⟩⟩

/-- The textbook test: the exact signed sum leaves the byte's range exactly when both summands have one sign and the
result the other (R142). -/
theorem signedSum_overflows_iff (a i : Byte) (c : Bool) :
    (a.toInt + i.toInt + c.toNat < -128 ∨ 127 < a.toInt + i.toInt + c.toNat) ↔
      a.msb = i.msb ∧ a.msb ≠ (adcSum a i c).msb := by
  have ha := a.isLt
  have hi := i.isLt
  have hc := c.toNat_le
  simp only [BitVec.toInt_eq_toNat_cond, BitVec.msb_eq_decide, adcSum_toNat, decide_eq_decide, ne_eq]
  omega

/-- Settles O35: the sign-change test drops the textbook test's condition on the input's sign. -/
theorem overflowIsASignChangeTest : Obligations.OverflowIsASignChangeTest := by
  intro a i c
  simp only [signedSum_overflows_iff, adcOverflow_eq_decide, ne_eq, decide_eq_decide]
  tauto

/-! ### Execution -/

@[simp] theorem State.addWithCarry_a (i : Byte) (s : State) :
    (s.addWithCarry i).a = adcSum s.a i (s.flag .carry) := rfl

/-- The four flags ADC writes say of its result what R140 says, the other four are kept. -/
theorem State.flag_addWithCarry (f : Flag) (i : Byte) (s : State) :
    (s.addWithCarry i).flag f =
      if f = .negative then (s.addWithCarry i).a.msb else if f = .zero then (s.addWithCarry i).a == 0
      else if f = .overflow then adcOverflow s.a (s.addWithCarry i).a
      else if f = .carry then adcCarry i (s.addWithCarry i).a else s.flag f :=
  getFlag_adcStatus f s.a i _ s.p

@[simp] theorem State.afterReads_a (s : State) (as : List Addr) : (s.afterReads as).a = s.a := by
  rw [State.afterReads_eq]

@[simp] theorem State.afterReads_flag (s : State) (as : List Addr) (f : Flag) :
    (s.afterReads as).flag f = s.flag f := by
  rw [State.afterReads_eq]
  rfl

/-- Settles O22: ADC reads its input with the operands consumed, then adds; consuming and reading write neither `A` nor
`P`. -/
theorem adcAddsWithSpecFlags : Obligations.AdcAddsWithSpecFlags := by
  intro s o i hi hread
  let u := (s.afterReads (inputReads o s)).setPc (s.pc + BitVec.ofNat 16 (operandCount o.mode))
  have ha : u.a = s.a := s.afterReads_a _
  have hflag f : u.flag f = s.flag f := s.afterReads_flag _ f
  have hexec : exec (.adc o) s = .next (u.addWithCarry i) := by
    rw [show u = (s.consume o).afterReads (inputReads o s) from (s.afterReads_setPc _ _).symm]
    exact withByte_ok hi hread State.addWithCarry
  refine ⟨u.addWithCarry i, hexec, ?_, ?_, ?_, ?_, ?_, ?_, rfl⟩
  · rw [State.addWithCarry_a, adcSum_toNat, ha, hflag]
  · simp [State.flag_addWithCarry, adcCarry_eq_decide]
  · simp [State.flag_addWithCarry]
  · simp [State.flag_addWithCarry, adcOverflow_eq_decide, ha, BitVec.msb_eq_getLsbD_last]
  · simp [State.flag_addWithCarry, BitVec.msb_eq_getLsbD_last]
  · simp [State.flag_addWithCarry, hflag]

/-- ADC answers a next state with the Decimal flag kept in every form, whether it adds or traps. -/
theorem exec_adc_keeps_decimal (o : Operand) (s : State) :
    ∃ t, exec (.adc o) s = .next t ∧ t.flag .decimal = s.flag .decimal := by
  obtain ⟨k, _, htrap⟩ | ⟨_, ⟨as, a, rfl⟩, hfails⟩ | ⟨i, _, ⟨as, rfl⟩, hadds⟩ :=
    withByte_cases o s State.addWithCarry
  · exact ⟨_, htrap, rfl⟩
  · exact ⟨_, hfails, (s.consume o).afterReads_flag as .decimal⟩
  · refine ⟨_, hadds, ?_⟩
    rw [State.flag_addWithCarry]
    exact (s.consume o).afterReads_flag as .decimal

/-- Two runs that agree on every flag but one differ by a write of that flag. -/
theorem AgreeOn.eq_setFlag {f : Flag} {s t : State} (h : AgreeOn (· ≠ f) s t) : t = s.setFlag f (t.flag f) := by
  obtain ⟨q, hq⟩ := h
  refine congrArg s.setP (status_ext _ _ fun g => ?_)
  rw [getFlag_putFlag]
  split
  · next hg => rw [hg]; rfl
  · next hg => exact hq g hg

theorem agreeOn_setFlag (s : State) (f : Flag) (v : Bool) : AgreeOn (· ≠ f) s (s.setFlag f v) :=
  .withP _ fun g hg => by rw [getFlag_putFlag, if_neg hg]; rfl

/-- Settles O36: runs that agree on every flag but Decimal stay so under ADC, and each keeps its own Decimal flag. -/
theorem decimalFlagDoesNotChangeAdc : Obligations.DecimalFlagDoesNotChangeAdc := by
  intro s o d
  obtain ⟨t, ht, _⟩ := exec_adc_keeps_decimal o s
  obtain ⟨t', ht', hkept⟩ := exec_adc_keeps_decimal o (s.setFlag .decimal d)
  have hruns := (agreeOn_setFlag s .decimal d).exec (by decide) (.adc o)
  rw [ht, ht'] at hruns
  obtain ⟨hagree⟩ := hruns
  rw [State.flag_setFlag, if_pos rfl] at hkept
  exact ⟨t, ht, by rw [ht', hagree.eq_setFlag, hkept]⟩

end Sys2Proof.Machine
end

section
/-! PROOFS. JMP sets `PC` to its resolved address, and a step that ends Running moves `PC` past its instruction or is a
JMP (spec/42_jump.md R145, R146). -/

namespace Sys2Proof.Machine

/-! ### JMP -/

/-- Settles O23: the operands consumed and the pointer read, `PC` is overwritten, so what consuming made of it is
lost. -/
theorem jmpSetsPcToTheResolvedAddress : Obligations.JmpSetsPcToTheResolvedAddress := by
  intro s o ea hea hread
  calc exec (.jmp o) s
      = .next (((s.consume o).afterReads (pointerReads o s)).setPc ea) := withAddress_ok hea hread State.setPc
    _ = .next { s.afterReads (pointerReads o s) with pc := ea } := by
      rw [State.consume, State.advance, State.afterReads_setPc]
      rfl

/-! ### Answers of a piece of a step -/

/-- A piece that begins with a read answers only where the read does not fail. -/
theorem State.busRead_andThen_eq_ok_iff {β : Type} (a : Addr) (s t : State) (f : Byte → State → Attempt β) (v : β) :
    (s.busRead a).andThen f = .ok v t ↔ s.readFails a = false ∧ f (s.byteAt a) (s.afterRead a) = .ok v t := by
  rw [State.busRead_andThen]
  cases s.readFails a <;> simp

/-- An address that is resolved is the effective address of the mode (R126). -/
theorem State.effectiveAddress_of_resolveAddress {o : Operand} {s t : State} {ea : Addr}
    (h : s.resolveAddress o = .ok ea t) : effectiveAddress o s = some ea := by
  cases o with
  | implied | accumulator | immediate v | relative d => cases h
  | absolute w => cases h; rfl
  | zeroPage z | zeroPageX z | zeroPageY z | absoluteX w | absoluteY w =>
    cases h
    simp only [effectiveAddress, zext16_eq]
  | indirect w | indirectX z | indirectY z =>
    simp only [State.resolveAddress, State.resolveLocation, State.busRead16, State.busReadZP, Attempt.andThen_assoc,
      State.busRead_andThen_eq_ok_iff] at h
    obtain ⟨_, _, h⟩ := h
    cases h
    simp only [effectiveAddress, ← zext16_eq]
    rfl

/-- R59: `n` reads answer only where none of them fails. -/
theorem State.readable_of_busReadN {n : Nat} {a : Addr} {s t : State} {bs : List Byte}
    (h : s.busReadN n a = .ok bs t) : s.readable (addressesFrom n a) = true := by
  induction n generalizing a s t bs with
  | zero => rfl
  | succ n ih =>
    obtain ⟨hfirst, h⟩ := (State.busRead_andThen_eq_ok_iff ..).mp h
    refine (s.readable_addressesFrom_succ n a).mpr ⟨hfirst, ?_⟩
    cases hrest : (s.afterRead a).busReadN n (a + 1) with
    | ok rest u => exact ih (s := s.afterRead a) hrest
    | raised u => rw [hrest] at h; cases h

/-! ### Where `PC` is when an instruction goes on Running -/

theorem effectiveAddress_setPc (o : Operand) (s : State) (w : Addr) :
    effectiveAddress o (s.setPc w) = effectiveAddress o s := by
  cases o <;> rfl

@[simp] theorem State.afterReads_pc (s : State) (as : List Addr) : (s.afterReads as).pc = s.pc := by
  rw [State.afterReads_eq]

theorem AfterBusFailure.run_ne_running {s t : State} (h : AfterBusFailure s t) : t.run ≠ .running := by
  obtain ⟨as, a, rfl⟩ := h
  simp

theorem ReadsOnly.run_ne_running_of_raised {α : Type} {s t : State} {r : Attempt α} (h : ReadsOnly s r)
    (hr : r = .raised t) : t.run ≠ .running := by
  obtain ⟨_, _, rfl, _⟩ | ⟨_, rfl, hfail⟩ := h <;> cases hr
  exact hfail.run_ne_running

/-- R146: executed in `s`, with `PC` past the opcode byte, the operation leaves `PC` in `t` past its operand bytes or,
if it is JMP, at the effective address of its operand. -/
def MovesPc (op : Operation) (o : Operand) (s t : State) : Prop :=
  (op ≠ .jmp ∧ t.pc = s.pc + BitVec.ofNat 16 (operandCount o.mode)) ∨
  (op = .jmp ∧ effectiveAddress o s = some t.pc)

theorem execAdc_movesPc {o : Operand} {s t : State} (h : execAdc o s = .next t) (ht : t.run = .running) :
    MovesPc .adc o s t := by
  obtain ⟨k, _, he⟩ | ⟨u, hu, he⟩ | ⟨i, _, ⟨as, rfl⟩, he⟩ := withByte_cases o s State.addWithCarry
  all_goals cases h.symm.trans he
  · cases ht
  · exact absurd ht hu.run_ne_running
  · exact .inl ⟨nofun, (s.consume o).afterReads_pc as⟩

theorem execJmp_movesPc {o : Operand} {s t : State} (h : execJmp o s = .next t) (ht : t.run = .running) :
    MovesPc .jmp o s t := by
  rw [execJmp, withAddress] at h
  split at h
  · cases h; cases ht
  · next hk =>
    split at h
    · next ea u hr =>
      cases h
      exact .inr ⟨rfl, effectiveAddress_consume o s ▸ State.effectiveAddress_of_resolveAddress hr⟩
    · next u hr =>
      cases h
      exact absurd ht ((State.resolveAddress_readsOnly o _ hk).run_ne_running_of_raised hr)

/-- R146: an instruction that goes on Running is an implemented one and moves `PC` in one of the two ways. -/
theorem exec_movesPc {i : Instr} {s t : State} (h : exec i s = .next t) (ht : t.run = .running) :
    i.operation.implemented = true ∧ MovesPc i.operation i.operand s t := by
  cases i with
  | adc o => exact ⟨rfl, execAdc_movesPc h ht⟩
  | jmp o => exact ⟨rfl, execJmp_movesPc h ht⟩
  | clc o | cld o | cli o | clv o | sec o | sed o | sei o | tax o | tay o | txa o | tya o | inx o | iny o | nop o =>
    cases h
    exact ⟨rfl, .inl ⟨nofun, rfl⟩⟩
  | _ o => cases h; cases ht

/-! ### The step -/

/-- A step that ends Running has read all bytes of a row (R101 to R104). -/
theorem step_row_of_running {s t : State} (h : step s = .next t) (ht : t.run = .running) :
    s.atBoundary = false ∧ ∃ r, s.params.optab.lookup (s.byteAt s.pc) = some r ∧
      s.readable (addressesFrom r.length s.pc) = true := by
  obtain ⟨_, rfl⟩ | ⟨_, _, rfl⟩ | ⟨_, _, _, rfl⟩ | ⟨hb, hopcode, r, hr, hrow⟩ := step_opcode_cases h
  · cases ht
  · cases ht
  · cases ht
  · refine ⟨hb, r, hr, ?_⟩
    rw [Row.length, Nat.add_comm]
    refine (s.readable_addressesFrom_succ _ s.pc).mpr ⟨hopcode, ?_⟩
    cases hrow with
    | operandReadFails hfails => exact absurd ht ((State.busReadN_readsOnly ..).run_ne_running_of_raised hfails)
    | dispatched ops v hok _ => exact State.readable_of_busReadN (s := (s.beginStep.afterRead s.pc).advance 1) hok

/-- Settles O40: a step that ends Running dispatches a row whose bytes it read, and the instruction moves `PC` from
past the opcode byte. -/
theorem pcMovesInTwoWays : Obligations.PcMovesInTwoWays := by
  intro s t h ht
  obtain ⟨hrun, _⟩ := step_cases h
  obtain ⟨hb, r, hr, hread⟩ := step_row_of_running h ht
  rw [step_of_row hrun hb hr hread] at h
  obtain ⟨himpl, hpc⟩ := exec_movesPc (i := r.instr _) h ht
  rw [Row.instr_operation] at himpl hpc
  rw [Row.instr_operand, ← State.operandAt, MovesPc, effectiveAddress_setPc] at hpc
  refine ⟨r, hr, himpl, hpc.imp_left fun ⟨hne, hpast⟩ => ⟨hne, ?_⟩⟩
  rw [hpast, State.setPc_pc, State.operandAt, assemble_mode, Row.length, BitVec.ofNat_add, ← BitVec.add_assoc]
  rfl

end Sys2Proof.Machine
end

section
/-! PROOFS. The flag-control operations write their one flag (spec/43_flag_control.md R149 to R157). -/

namespace Sys2Proof.Machine

/-- R149, R157: a flag write without an input, made after the operands are consumed, which moves `PC` only. -/
theorem withoutInput_setFlag_writesOneFlag (o : Operand) (s : State) (f : Flag) (v : Bool) :
    ∃ t, withoutInput o s (State.setFlag f v) = .next t ∧ t.flag f = v ∧
      (∀ g, g ≠ f → t.flag g = s.flag g) ∧
      t = { s with p := t.p, pc := s.pc + BitVec.ofNat 16 (operandCount o.mode) } := by
  have hflag g : ((s.consume o).setFlag f v).flag g = if g = f then v else s.flag g :=
    State.flag_setFlag f g v (s.consume o)
  exact ⟨_, withoutInput_eq .., (hflag f).trans (if_pos rfl), fun g hg => (hflag g).trans (if_neg hg), rfl⟩

/-- Settles O24: each of the seven is a flag write without an input. -/
theorem flagOperationsWriteTheirOneFlag : Obligations.FlagOperationsWriteTheirOneFlag := by
  intro s o
  have h := withoutInput_setFlag_writesOneFlag o s
  simp only [List.forall_mem_cons]
  exact ⟨h .carry false, h .decimal false, h .interruptDisable false, h .overflow false,
    h .carry true, h .decimal true, h .interruptDisable true, List.forall_mem_nil _⟩

end Sys2Proof.Machine
end

section
/-! PROOFS. The transfers copy a register and describe the copied byte (spec/44_transfer.md R159 to R164). -/

namespace Sys2Proof.Machine

/-- R27: in `t`, Zero and Negative are those of the byte `v`, and the other six flags are those of `s`. -/
def DescribesByte (v : Byte) (s t : State) : Prop :=
  (t.flag .zero = true ↔ v = 0) ∧ t.flag .negative = v.getLsbD 7 ∧
    ∀ f, f ≠ .zero → f ≠ .negative → t.flag f = s.flag f

theorem State.flag_setZeroNegative (f : Flag) (v : Byte) (s : State) :
    (s.setZeroNegative v).flag f =
      if f = .negative then v.msb else if f = .zero then v == 0 else s.flag f :=
  getFlag_putZeroNegative f v s.p

theorem State.setZeroNegative_describesByte (v : Byte) (s : State) : DescribesByte v s (s.setZeroNegative v) := by
  refine ⟨?_, ?_, fun f hz hn => ?_⟩
  · simp [State.flag_setZeroNegative]
  · simp [State.flag_setZeroNegative, BitVec.msb_eq_getLsbD_last]
  · rw [State.flag_setZeroNegative, if_neg hn, if_neg hz]

/-- R159: an operation without an input that writes a register, not `P`, and then describes the byte `v`. -/
theorem withoutInput_setZeroNegative_describesByte (o : Operand) (s : State) (f : State → State) (v : State → Byte)
    (hp : (f (s.consume o)).p = s.p) :
    ∃ t, withoutInput o s (fun u => (f u).setZeroNegative (v u)) = .next t ∧ DescribesByte (v (s.consume o)) s t ∧
      t = { f (s.consume o) with p := t.p } := by
  refine ⟨_, withoutInput_eq .., ?_, rfl⟩
  have h := (f (s.consume o)).setZeroNegative_describesByte (v (s.consume o))
  simpa only [DescribesByte, State.flag, hp] using h

/-- Settles O25: each of the four writes its destination and describes the byte; consuming the operands moves `PC`
only, so the byte is the old source. -/
theorem transfersCopyAndDescribeTheByte : Obligations.TransfersCopyAndDescribeTheByte := by
  intro s o
  have h := withoutInput_setZeroNegative_describesByte o s
  exact ⟨h (fun u => u.setX u.a) State.a rfl, h (fun u => u.setY u.a) State.a rfl,
    h (fun u => u.setA u.x) State.x rfl, h (fun u => u.setA u.y) State.y rfl⟩

end Sys2Proof.Machine
end

section
/-! PROOFS. INX and INY add 1 modulo 256 and describe the sum (spec/45_increment.md R166 to R168). -/

namespace Sys2Proof.Machine

/-- Settles O26: each of the two writes its register and describes the byte written; consuming the operands moves `PC`
only, so that byte is the old register plus 1, a sum of bytes. -/
theorem incrementsWrapWithoutCarry : Obligations.IncrementsWrapWithoutCarry := by
  intro s o
  have h := withoutInput_setZeroNegative_describesByte o s
  constructor
  · obtain ⟨t, hexec, hdescribes, ht⟩ := h (fun u => u.setX (u.x + 1)) (fun u => u.x + 1) rfl
    have hx : t.x = s.x + 1 := congrArg State.x ht
    exact ⟨t, hexec, hx ▸ BitVec.toNat_add s.x 1, hx ▸ hdescribes, hx ▸ ht⟩
  · obtain ⟨t, hexec, hdescribes, ht⟩ := h (fun u => u.setY (u.y + 1)) (fun u => u.y + 1) rfl
    have hy : t.y = s.y + 1 := congrArg State.y ht
    exact ⟨t, hexec, hy ▸ BitVec.toNat_add s.y 1, hy ▸ hdescribes, hy ▸ ht⟩

end Sys2Proof.Machine
end

section
/-! PROOFS. NOP moves `PC` past its operand bytes and changes nothing else (spec/46_nop.md R170). -/

namespace Sys2Proof.Machine

/-- R110: Implied has no operand bytes to consume. -/
theorem State.consume_implied (s : State) : s.consume .implied = s :=
  congrArg (s.setPc ·) (BitVec.add_zero s.pc)

/-- R170, R110: NOP only consumes its operand bytes. -/
theorem exec_nop (s : State) (o : Operand) : exec (.nop o) s = .next (s.consume o) :=
  withoutInput_eq o s id

theorem lookup_standard_nop : Optab.standard.lookup 0xEA = some ⟨0xEA, .nop, .implied, 2⟩ :=
  standardRows_lookup ⟨0xEA, .nop, .implied, 2⟩ (by decide)

/-- Settles O27: consuming the operands moves `PC` only; the row of 0xEA is NOP in Implied, of one byte, so its step
leaves `PC` past the opcode byte and `exec` moves it no further. -/
theorem nopMovesOnlyPc : Obligations.NopMovesOnlyPc := by
  refine ⟨exec_nop, fun s hrun hb htable hbyte hread => ?_⟩
  have hr : s.params.optab.lookup (s.byteAt s.pc) = some ⟨0xEA, .nop, .implied, 2⟩ := by
    rw [htable, hbyte, lookup_standard_nop]
  have hreadable : s.readable (addressesFrom 1 s.pc) = true :=
    (s.readable_addressesFrom_succ 0 s.pc).mpr ⟨hread, rfl⟩
  calc step s
      = exec (.nop .implied) ((s.beginStep.afterRead s.pc).setPc (s.pc + 1)) := step_of_row hrun hb hr hreadable
    _ = .next ((s.beginStep.afterRead s.pc).setPc (s.pc + 1)) := by rw [exec_nop, State.consume_implied]

end Sys2Proof.Machine
end

section
/-! PROOFS. The 40 operations without a semantic mapping raise `UnimplementedOperation`, and nothing else happens
(spec/47_unimplemented_data_ops.md R200 to R224, spec/48_unimplemented_control_stack_system.md R230 to R245). -/

namespace Sys2Proof.Machine

/-- R200: the fault is all such an operation does, in every form. -/
theorem exec_of_not_implemented {i : Instr} (s : State) (h : i.operation.implemented = false) :
    exec i s = .next (s.raise (.unimplementedOperation i.operation)) := by
  cases i with
  | adc o | jmp o | clc o | cld o | cli o | clv o | sec o | sed o | sei o | tax o | tay o | txa o | tya o | inx o
  | iny o | nop o => cases h
  | _ o => rfl

theorem exec_of_not_implemented_pair {c : Instr × Operation} (s : State)
    (h : c.1.operation = c.2 ∧ c.2.implemented = false) :
    exec c.1 s = .next (s.raise (.unimplementedOperation c.2)) := by
  obtain ⟨hop, himpl⟩ := h
  rw [← hop] at himpl ⊢
  exact exec_of_not_implemented s himpl

/-- Settles O28: each instruction listed is of the operation beside it, which has no semantic mapping. -/
theorem unimplementedDataOperationsEndTheRun : Obligations.UnimplementedDataOperationsEndTheRun := by
  refine fun s o c hc => exec_of_not_implemented_pair s ?_
  revert c
  simp [Instr.operation, Operation.implemented]

/-- Settles O29: each instruction listed is of the operation beside it, which has no semantic mapping. -/
theorem unimplementedControlOperationsEndTheRun : Obligations.UnimplementedControlOperationsEndTheRun := by
  refine fun s o c hc => exec_of_not_implemented_pair s ?_
  revert c
  simp [Instr.operation, Operation.implemented]

/-- Settles O19: the row is dispatched with its bytes read, and its operation only raises. -/
theorem unimplementedStepEndsTheRun : Obligations.UnimplementedStepEndsTheRun := by
  intro s r hrun hb hr himpl hread
  have hexec (ops : List Byte) (u : State) :
      exec (r.instr ops) u = .next (u.raise (.unimplementedOperation r.operation)) :=
    exec_of_not_implemented_pair (c := (r.instr ops, r.operation)) u ⟨Row.instr_operation r ops, himpl⟩
  exact (step_of_row hrun hb hr hread).trans (hexec _ _)

end Sys2Proof.Machine
end

section
/-! PROOFS. Of the reads a mode makes for its input the first that fails ends the step, with only `PC` moved
(spec/60_exceptions.md R254, R257, spec/41_arithmetic_adc.md R140, spec/42_jump.md R145). -/

namespace Sys2Proof.Machine

/-! ### The first of a list of reads that fails -/

/-- Of these reads, those of the third argument are answered and the read of the address after them fails (R61). -/
inductive FirstFailure (s : State) : List Addr → List Addr → Addr → Prop
  | here {a : Addr} {rest : List Addr} (h : s.readFails a = true) : FirstFailure s (a :: rest) [] a
  | later {b a : Addr} {rest before : List Addr} (hb : s.readFails b = false) (h : FirstFailure s rest before a) :
      FirstFailure s (b :: rest) (b :: before) a

theorem firstFailure_append {s : State} {before : List Addr} {a : Addr} (hread : s.readable before = true)
    (hfail : s.readFails a = true) (after : List Addr) : FirstFailure s (before ++ a :: after) before a := by
  induction before with
  | nil => exact .here hfail
  | cons b rest ih =>
    obtain ⟨hb, hrest⟩ : s.readFails b = false ∧ s.readable rest = true := by
      simpa [State.readable_cons] using hread
    exact .later hb (ih hrest)

theorem FirstFailure.fails {s : State} {reads before : List Addr} {a : Addr} (h : FirstFailure s reads before a) :
    s.readFails a = true := by
  induction h with
  | here h => exact h
  | later _ _ ih => exact ih

theorem FirstFailure.readable {s : State} {reads before : List Addr} {a : Addr} (h : FirstFailure s reads before a) :
    s.readable before = true := by
  induction h with
  | here _ => rfl
  | later hb _ ih => simp [State.readable_cons, hb, ih]

theorem FirstFailure.ne_nil {s : State} {reads before : List Addr} {a : Addr} (h : FirstFailure s reads before a) :
    reads ≠ [] := by
  cases h <;> simp

theorem FirstFailure.exists_append {s : State} {reads before : List Addr} {a : Addr}
    (h : FirstFailure s reads before a) : ∃ after, reads = before ++ a :: after := by
  induction h with
  | here _ => exact ⟨_, rfl⟩
  | later _ _ ih =>
    obtain ⟨after, rfl⟩ := ih
    exact ⟨after, rfl⟩

theorem State.readable_or_firstFailure (s : State) (reads : List Addr) :
    s.readable reads = true ∨ ∃ before a, FirstFailure s reads before a := by
  induction reads with
  | nil => exact .inl rfl
  | cons b rest ih =>
    cases hb : s.readFails b with
    | true => exact .inr ⟨[], b, .here hb⟩
    | false =>
      obtain hrest | ⟨before, a, hrest⟩ := ih
      · exact .inl (by simp [State.readable_cons, hb, hrest])
      · exact .inr ⟨b :: before, a, .later hb hrest⟩

/-- Which reads fail is a matter of the platform. -/
theorem FirstFailure.congr {s t : State} {reads before : List Addr} {a : Addr}
    (h : FirstFailure s reads before a) (hp : t.params = s.params) : FirstFailure t reads before a := by
  have heq b : t.readFails b = s.readFails b := by rw [State.readFails, hp, State.readFails]
  induction h with
  | here h => exact .here ((heq _).trans h)
  | later hb _ ih => exact .later ((heq _).trans hb) ih

/-- A last read fails first only after all others are answered. -/
theorem FirstFailure.of_concat {s : State} {reads before : List Addr} {ea a : Addr}
    (h : FirstFailure s (reads ++ [ea]) before a) :
    FirstFailure s reads before a ∨ (s.readable reads = true ∧ before = reads ∧ a = ea) := by
  induction reads generalizing before with
  | nil =>
    cases h with
    | here _ => exact .inr ⟨rfl, rfl, rfl⟩
    | later _ h => cases h
  | cons b rest ih =>
    cases h with
    | here hb => exact .inl (.here hb)
    | later hb h =>
      obtain h | ⟨hread, rfl, rfl⟩ := ih h
      · exact .inl (.later hb h)
      · exact .inr ⟨by simp [State.readable_cons, hb, hread], rfl, rfl⟩

/-! ### The resolver -/

/-- R57, R58: a pair of reads ends at the first of the two that fails. -/
theorem State.busRead_lowThenHigh_fails {lo hi a : Addr} {s : State} {before : List Addr}
    (h : FirstFailure s [lo, hi] before a) :
    ((s.busRead lo).andThen fun l t => (t.busRead hi).andThen fun h u => .ok (joinBytes h l) u) =
      .raised ((s.afterReads before).failedRead a) := by
  rw [State.busRead_lowThenHigh]
  cases h with
  | here hlo => simp [hlo]
  | later hlo h =>
    cases h with
    | here hhi => simp [hlo, hhi]
    | later _ h => cases h

/-- Only a mode with an address makes reads. -/
theorem addressFault_of_inputReads {o : Operand} {s : State} (h : inputReads o s ≠ []) : addressFault o = none := by
  cases o with
  | implied | accumulator | immediate v | relative d => exact absurd rfl h
  | _ => rfl

theorem addressFault_of_pointerReads {o : Operand} {s : State} (h : pointerReads o s ≠ []) : addressFault o = none :=
  addressFault_of_inputReads (s := s) (by simp [inputReads, h])

theorem byteFault_of_addressFault {o : Operand} (h : addressFault o = none) : byteFault o = none := by
  cases o <;> cases h <;> rfl

/-- R126: resolving an address ends at the first pointer read that fails. -/
theorem State.resolveAddress_fails {o : Operand} {s : State} {before : List Addr} {a : Addr}
    (h : FirstFailure s (pointerReads o s) before a) :
    s.resolveAddress o = .raised ((s.afterReads before).failedRead a) := by
  cases o with
  | indirect w =>
    have hw : s.busRead16 w = .raised _ := State.busRead_lowThenHigh_fails h
    simp only [State.resolveAddress, State.resolveLocation, hw, Attempt.andThen]
  | indirectX z =>
    simp only [pointerReads, ← zext16_eq] at h
    have hz : s.busReadZP (z + s.x) = .raised _ := State.busRead_lowThenHigh_fails h
    simp only [State.resolveAddress, State.resolveLocation, hz, Attempt.andThen]
  | indirectY z =>
    simp only [pointerReads, ← zext16_eq] at h
    have hz : s.busReadZP z = .raised _ := State.busRead_lowThenHigh_fails h
    simp only [State.resolveAddress, State.resolveLocation, hz, Attempt.andThen]
  | _ => cases h

/-- R111, R126: resolving a byte ends at the first pointer read that fails, or at the failing data read. -/
theorem State.resolveByte_fails {o : Operand} {s : State} {before : List Addr} {a : Addr}
    (h : FirstFailure s (inputReads o s) before a) :
    s.resolveByte o = .raised ((s.afterReads before).failedRead a) := by
  have haddr := addressFault_of_inputReads h.ne_nil
  obtain ⟨ea, hea⟩ := Option.isSome_iff_exists.mp ((effectiveAddress_isSome o s).trans (by rw [haddr]; rfl))
  have hfail := h.fails
  rw [inputReads_of_effectiveAddress hea] at h
  rw [s.resolveByte_of_addressFault_eq_none haddr]
  obtain hpointer | ⟨hread, rfl, rfl⟩ := h.of_concat
  · rw [State.resolveAddress_fails hpointer]
    rfl
  · rw [State.resolveAddress_ok hea hread]
    exact State.busRead_fails a _ (by simpa using hfail)

/-! ### Execution -/

/-- R106 c: the operands consumed, the first input read that fails ends ADC. -/
theorem exec_adc_fails {o : Operand} {s : State} {before : List Addr} {a : Addr}
    (h : FirstFailure s (inputReads o s) before a) :
    exec (.adc o) s = .next (((s.consume o).afterReads before).failedRead a) := by
  have hbyte := byteFault_of_addressFault (addressFault_of_inputReads h.ne_nil)
  rw [← inputReads_consume] at h
  have hr := State.resolveByte_fails (h.congr (t := s.consume o) rfl)
  simp only [exec, execAdc, withByte, hbyte, hr]

/-- R106 c: the operands consumed, the first pointer read that fails ends JMP. -/
theorem exec_jmp_fails {o : Operand} {s : State} {before : List Addr} {a : Addr}
    (h : FirstFailure s (pointerReads o s) before a) :
    exec (.jmp o) s = .next (((s.consume o).afterReads before).failedRead a) := by
  have haddr := addressFault_of_pointerReads h.ne_nil
  rw [← pointerReads_consume] at h
  have hr := State.resolveAddress_fails (h.congr (t := s.consume o) rfl)
  simp only [exec, execJmp, withAddress, haddr, hr]

/-- Settles O31: the reads before `a` are readable, so `a` is the first to fail; consuming the operands moves `PC`
only, and reads do not look at it. -/
theorem readFailureTrapsBeforeAnyWrite : Obligations.ReadFailureTrapsBeforeAnyWrite := by
  intro s o before after a hread hfail t
  have hfirst := firstFailure_append hread hfail after
  have ht : ((s.consume o).afterReads before).failedRead a = t := by
    rw [State.consume, State.advance, State.afterReads_setPc]
    rfl
  exact ⟨fun h => ht ▸ exec_adc_fails (h ▸ hfirst), fun h => ht ▸ exec_jmp_fails (h ▸ hfirst)⟩

end Sys2Proof.Machine
end

section
/-! PROOFS. A step that ends in a fault raises one of the four kinds at one of five places of the step, and writes no
register but `PC` (spec/60_exceptions.md R250 to R257). -/

namespace Sys2Proof.Machine

/-! ### The fault an instruction ends in -/

/-- How an instruction dispatched in `s` ends in a fault: before it consumes its operands (R105, R106 a), or at the
first of its input reads that fails (R106 c). -/
inductive ExecFaults (op : Operation) (o : Operand) (s : State) : FaultKind → State → Prop
  | firstFault {k : FaultKind} (hk : FirstFault op o k) : ExecFaults op o s k (s.raise k)
  | inputFails {before : List Addr} {a : Addr} (h : FirstFailure s (operationReads op o s) before a) :
      ExecFaults op o s (.busFailure a) (((s.consume o).afterReads before).failedRead a)

section
variable {o : Operand} {s t : State} {k : FaultKind} (hrun : s.run = .running) (ht : t.run = .faulted k)
include hrun ht

theorem execAdc_faults (h : exec (.adc o) s = .next t) : ExecFaults .adc o s k t := by
  cases hbyte : byteFault o with
  | some k' =>
    cases h.symm.trans (withByte_of_byteFault s State.addWithCarry hbyte)
    cases ht
    exact .firstFault (.inr (.inl ⟨rfl, hbyte⟩))
  | none =>
    obtain hread | ⟨before, a, hfirst⟩ := s.readable_or_firstFailure (inputReads o s)
    · obtain ⟨v, hv⟩ := Option.isSome_iff_exists.mp ((inputByte_isSome o s).trans (by rw [hbyte]; rfl))
      cases h.symm.trans (withByte_ok hv hread State.addWithCarry)
      have hkept : RunState.faulted k = .running := ht.symm.trans (((s.consume o).afterReads_run _).trans hrun)
      cases hkept
    · cases h.symm.trans (exec_adc_fails hfirst)
      cases ht
      exact .inputFails hfirst

theorem execJmp_faults (h : exec (.jmp o) s = .next t) : ExecFaults .jmp o s k t := by
  cases haddr : addressFault o with
  | some k' =>
    cases h.symm.trans (withAddress_of_addressFault s State.setPc haddr)
    cases ht
    exact .firstFault (.inr (.inr ⟨rfl, haddr⟩))
  | none =>
    obtain hread | ⟨before, a, hfirst⟩ := s.readable_or_firstFailure (pointerReads o s)
    · obtain ⟨ea, hea⟩ := Option.isSome_iff_exists.mp ((effectiveAddress_isSome o s).trans (by rw [haddr]; rfl))
      cases h.symm.trans (withAddress_ok hea hread State.setPc)
      have hkept : RunState.faulted k = .running := ht.symm.trans (((s.consume o).afterReads_run _).trans hrun)
      cases hkept
    · cases h.symm.trans (exec_jmp_fails hfirst)
      cases ht
      exact .inputFails hfirst

/-- R105, R106: an implemented operation without an input raises no fault, an unimplemented one raises it first. -/
theorem exec_faults {i : Instr} (h : exec i s = .next t) : ExecFaults i.operation i.operand s k t := by
  cases i with
  | adc o => exact execAdc_faults hrun ht h
  | jmp o => exact execJmp_faults hrun ht h
  | clc o | cld o | cli o | clv o | sec o | sed o | sei o | tax o | tay o | txa o | tya o | inx o | iny o | nop o =>
    cases h
    cases hrun.symm.trans ht
  | _ o =>
    cases h
    cases ht
    exact .firstFault (.inl ⟨rfl, rfl⟩)

end

/-! ### The fault a step ends in -/

theorem add_one_add_ofNat (a : Addr) (n : Nat) : a + 1 + BitVec.ofNat 16 n = a + BitVec.ofNat 16 (n + 1) := by
  rw [BitVec.add_assoc, Nat.add_comm n 1, BitVec.ofNat_add]
  rfl

/-- R59, R61: the first of `n` ascending reads that fails, by its index. -/
theorem FirstFailure.exists_index {s : State} {n : Nat} {start a : Addr} {before : List Addr}
    (h : FirstFailure s (addressesFrom n start) before a) :
    ∃ k, k < n ∧ before = addressesFrom k start ∧ a = start + BitVec.ofNat 16 k := by
  induction n generalizing start before with
  | zero => cases h
  | succ n ih =>
    cases h with
    | here _ => exact ⟨0, Nat.succ_pos n, rfl, (BitVec.add_zero _).symm⟩
    | later _ h =>
      obtain ⟨k, hk, rfl, rfl⟩ := ih h
      exact ⟨k + 1, Nat.succ_lt_succ hk, rfl, add_one_add_ofNat start k⟩

theorem addressesFrom_concat (n : Nat) (a : Addr) :
    addressesFrom (n + 1) a = addressesFrom n a ++ [a + BitVec.ofNat 16 n] := by
  induction n generalizing a with
  | zero => simp [addressesFrom]
  | succ n ih => rw [addressesFrom, ih (a + 1), add_one_add_ofNat]; rfl

/-- How a step from `s` ends in a fault: the opcode byte cannot be read (R101) or decoded (R102), an operand byte
cannot be read (R104), or the dispatched instruction ends in one (R105, R106). -/
inductive StepFaults (s : State) : FaultKind → State → Prop
  | fetchFails (h : s.readFails s.pc = true) : StepFaults s (.busFailure s.pc) (s.beginStep.failedRead s.pc)
  | unknownOpcode (h : s.params.optab.lookup (s.byteAt s.pc) = none) :
      StepFaults s (.decodeFailure (s.byteAt s.pc))
        ((s.beginStep.afterRead s.pc).raise (.decodeFailure (s.byteAt s.pc)))
  | operandFails {r : Row} {n : Nat} (hr : s.params.optab.lookup (s.byteAt s.pc) = some r)
      (hn : n < operandCount r.mode) (h : s.readFails (s.pc + 1 + BitVec.ofNat 16 n) = true) :
      StepFaults s (.busFailure (s.pc + 1 + BitVec.ofNat 16 n))
        (((s.beginStep.afterReads (addressesFrom (n + 1) s.pc)).failedRead
          (s.pc + 1 + BitVec.ofNat 16 n)).setPc (s.pc + 1))
  | dispatched {r : Row} {k : FaultKind} {t : State} (hr : s.params.optab.lookup (s.byteAt s.pc) = some r)
      (h : ExecFaults r.operation (s.operandAt r) ((s.afterFetch r).setPc (s.pc + 1)) k t) : StepFaults s k t

theorem step_faults {s t : State} {k : FaultKind} (hrun : s.run = .running) (h : step s = .next t)
    (ht : t.run = .faulted k) : StepFaults s k t := by
  obtain ⟨_, rfl⟩ | ⟨_, hfail, rfl⟩ | ⟨_, _, hnone, rfl⟩ | ⟨hb, hopcode, r, hr, _⟩ := step_opcode_cases h
  · cases ht
  · cases ht
    exact .fetchFails hfail
  · cases ht
    exact .unknownOpcode hnone
  · obtain hread | ⟨before, a, hfirst⟩ := s.readable_or_firstFailure (addressesFrom (operandCount r.mode) (s.pc + 1))
    · have hread : s.readable (addressesFrom r.length s.pc) = true := by
        rw [Row.length, Nat.add_comm]
        exact (s.readable_addressesFrom_succ _ _).mpr ⟨hopcode, hread⟩
      rw [step_of_row hrun hb hr hread] at h
      have hexec := exec_faults (i := r.instr _) (s := (s.afterFetch r).setPc (s.pc + 1))
        ((State.afterReads_run s.beginStep _).trans hrun) ht h
      rw [Row.instr_operation, Row.instr_operand] at hexec
      exact .dispatched hr hexec
    · obtain ⟨n, hn, rfl, rfl⟩ := hfirst.exists_index
      have hread := (s.readable_addressesFrom_succ n s.pc).mpr ⟨hopcode, hfirst.readable⟩
      cases h.symm.trans (operandReadFailureStopsPastTheOpcode s r n hrun hb hr hn hread hfirst.fails)
      cases ht
      exact .operandFails hr hn hfirst.fails

/-! ### What the fault leaves -/

/-- `t` has the registers of `s` but for `PC`, and its latched vectors. -/
def SameButPc (s t : State) : Prop :=
  t.a = s.a ∧ t.x = s.x ∧ t.y = s.y ∧ t.s = s.s ∧ t.p = s.p ∧ t.vec = s.vec

theorem SameButPc.trans {s t u : State} (h : SameButPc s t) (k : SameButPc t u) : SameButPc s u := by
  obtain ⟨ha, hx, hy, hs, hp, hvec⟩ := h
  obtain ⟨ka, kx, ky, ks, kp, kvec⟩ := k
  exact ⟨ka.trans ha, kx.trans hx, ky.trans hy, ks.trans hs, kp.trans hp, kvec.trans hvec⟩

theorem sameButPc_afterReads (s : State) (as : List Addr) : SameButPc s (s.afterReads as) := by
  rw [SameButPc, State.afterReads_eq]
  exact ⟨rfl, rfl, rfl, rfl, rfl, rfl⟩

theorem sameButPc_afterFetch (r : Row) (s : State) : SameButPc s (s.afterFetch r) :=
  sameButPc_afterReads s.beginStep _

theorem ExecFaults.sameButPc {op : Operation} {o : Operand} {s t : State} {k : FaultKind}
    (h : ExecFaults op o s k t) : SameButPc s t := by
  cases h with
  | firstFault _ => exact ⟨rfl, rfl, rfl, rfl, rfl, rfl⟩
  | inputFails _ => exact sameButPc_afterReads (s.consume o) _

theorem StepFaults.sameButPc {s t : State} {k : FaultKind} (h : StepFaults s k t) : SameButPc s t := by
  cases h with
  | fetchFails _ => exact ⟨rfl, rfl, rfl, rfl, rfl, rfl⟩
  | unknownOpcode _ => exact ⟨rfl, rfl, rfl, rfl, rfl, rfl⟩
  | operandFails _ _ _ => exact sameButPc_afterReads s.beginStep _
  | dispatched _ h => exact (sameButPc_afterFetch _ s).trans h.sameButPc

@[simp] theorem State.afterReads_accesses (s : State) (as : List Addr) :
    (s.afterReads as).accesses = s.accesses ++ as.map .read := by
  rw [State.afterReads_eq]

theorem State.afterFetch_accesses (r : Row) (s : State) :
    (s.afterFetch r).accesses = (addressesFrom r.length s.pc).map .read :=
  s.beginStep.afterReads_accesses _

theorem operationReads_setPc (op : Operation) (o : Operand) (s : State) (w : Addr) :
    operationReads op o (s.setPc w) = operationReads op o s := rfl

/-- R251: the request a fault of JMP names is the one its mode cannot answer. -/
theorem unanswered_of_addressFault {o : Operand} {k : FaultKind} (h : addressFault o = some k) :
    ∃ q, k = .invalidAddressing o.mode q ∧ unanswered .jmp o.mode q := by
  cases o <;> cases h <;> exact ⟨_, rfl, by simp [unanswered, Operand.mode]⟩

/-- Settles O39: a fault is raised at one of the places of `StepFaults`; the case of an instruction's first fault is
split by its three kinds. -/
theorem faultedStepChangesOnlyPc : Obligations.FaultedStepChangesOnlyPc := by
  intro s t k hrun h ht
  have hfaults := step_faults hrun h ht
  refine ⟨hfaults.sameButPc, ?_⟩
  cases hfaults with
  | fetchFails hfail => exact ⟨hfail, .inl ⟨rfl, rfl, rfl⟩⟩
  | unknownOpcode hnone => exact ⟨rfl, hnone, rfl, rfl⟩
  | @operandFails r n hr hn hfail =>
    refine ⟨hfail, .inr ⟨r, hr, .inl ⟨n, hn, rfl, rfl, ?_⟩⟩⟩
    rw [addressesFrom_concat (n + 1), ← add_one_add_ofNat]
    simp
  | @dispatched r _ _ hr hexec =>
    have haccesses := s.afterFetch_accesses r
    have hmode : (s.operandAt r).mode = r.mode := assemble_mode ..
    cases hexec with
    | firstFault hk =>
      obtain ⟨himpl, rfl⟩ | ⟨hop, hbyte⟩ | ⟨hop, haddr⟩ := hk
      · exact ⟨r, hr, rfl, himpl, rfl, haccesses⟩
      · obtain ⟨rfl, hmem⟩ := byteFault_eq_some _ _ hbyte
        exact ⟨r, hr, hmode.symm, .inl ⟨hop, rfl, hmem⟩, rfl, haccesses⟩
      · obtain ⟨q, rfl, hq⟩ := unanswered_of_addressFault haddr
        exact ⟨r, hr, hmode.symm, hop ▸ hq, rfl, haccesses⟩
    | @inputFails before a hfirst =>
      obtain ⟨after, hreads⟩ := hfirst.exists_append
      refine ⟨?_, .inr ⟨r, hr, .inr ⟨before, after, hreads, ?_, ?_⟩⟩⟩
      · exact (hfirst.congr (State.afterReads_params s.beginStep _).symm).fails
      · rw [Row.length, Nat.add_comm, ← add_one_add_ofNat, ← hmode]
        simp
      · simp [haccesses]

end Sys2Proof.Machine
end

section
/-! PROOFS. Construction reads the six vector bytes in ascending order and latches each vector after its two reads; the
first byte that cannot be read ends it (spec/70_reset_and_hazards.md R280, R281, spec/10_state.md R35). -/

namespace Sys2Proof.Machine

/-! ### Reads do not look at the latched vectors -/

/-- `VEC <- v` (R31). -/
def State.setVec (v : VectorSet) (s : State) : State := { s with vec := v }

@[simp] theorem State.setVec_vec (v : VectorSet) (s : State) : (s.setVec v).vec = v := rfl

@[simp] theorem State.setVec_setVec (v w : VectorSet) (s : State) : (s.setVec v).setVec w = s.setVec w := rfl

@[simp] theorem State.readFails_setVec (v : VectorSet) (s : State) (a : Addr) :
    (s.setVec v).readFails a = s.readFails a := rfl

@[simp] theorem State.byteAt_setVec (v : VectorSet) (s : State) (a : Addr) :
    (s.setVec v).byteAt a = s.byteAt a := rfl

@[simp] theorem State.afterRead_setVec (v : VectorSet) (s : State) (a : Addr) :
    (s.setVec v).afterRead a = (s.afterRead a).setVec v := rfl

@[simp] theorem Attempt.ok_andThen {α β : Type} (v : α) (s : State) (f : α → State → Attempt β) :
    (Attempt.ok v s).andThen f = f v s := rfl

@[simp] theorem Attempt.raised_andThen {α β : Type} (s : State) (f : α → State → Attempt β) :
    (Attempt.raised s).andThen f = .raised s := rfl

theorem State.wordRead_eq_joinBytes (s : State) (lo hi : Addr) :
    s.wordRead lo hi = joinBytes ((s.afterRead lo).byteAt hi) (s.byteAt lo) := rfl

/-! ### The six reads -/

/-- R280, R281: the vectors latched from `s` once the first `n` of the six bytes are read, each after its two. -/
def State.vectorsAfter (n : Nat) (s : State) : VectorSet where
  nmi := if 2 ≤ n then s.wordRead 0xFFFA 0xFFFB else s.vec.nmi
  reset := if 4 ≤ n then (s.afterReads [0xFFFA, 0xFFFB]).wordRead 0xFFFC 0xFFFD else s.vec.reset
  irq := if 6 ≤ n then (s.afterReads [0xFFFA, 0xFFFB, 0xFFFC, 0xFFFD]).wordRead 0xFFFE 0xFFFF else s.vec.irq

/-- The state after the first `n` of the six reads, the vectors read so far latched. -/
def State.afterVectorReads (n : Nat) (s : State) : State :=
  (s.afterReads (addressesFrom n 0xFFFA)).setVec (s.vectorsAfter n)

theorem State.afterVectorReads_zero (s : State) : s.afterVectorReads 0 = s := rfl

theorem State.afterVectorReads_one (s : State) : s.afterVectorReads 1 = s.afterRead 0xFFFA := rfl

theorem State.latchVectors_eq_busRead16 (s : State) :
    s.latchVectors =
      (s.busRead16 0xFFFA).andThen fun nmi t =>
        ((t.setVec { t.vec with nmi := nmi }).busRead16 0xFFFC).andThen fun rst u =>
          ((u.setVec { u.vec with reset := rst }).busRead16 0xFFFE).andThen fun irq v =>
            .ok () (v.setVec { v.vec with irq := irq }) := rfl

/-- R280: where none of the six reads fails the three vectors are latched. -/
theorem State.latchVectors_ok {s : State} (h : ∀ a ∈ addressesFrom 6 0xFFFA, s.readFails a = false) :
    s.latchVectors = .ok () (s.afterVectorReads 6) := by
  simp [addressesFrom] at h
  simp [State.latchVectors_eq_busRead16, State.busRead16, State.busRead_ok, h, State.afterVectorReads,
    State.vectorsAfter, addressesFrom, State.wordRead_eq_joinBytes]

/-- R281: the first of the six reads that fails is the last made, and a vector is latched if both its bytes came
before. -/
theorem State.latchVectors_fails {s : State} {n : Nat} (hn : n < 6)
    (h : ∀ a ∈ addressesFrom n 0xFFFA, s.readFails a = false)
    (hfail : s.readFails (0xFFFA + BitVec.ofNat 16 n) = true) :
    s.latchVectors = .raised ((s.afterVectorReads n).failedRead (0xFFFA + BitVec.ofNat 16 n)) := by
  interval_cases n
  all_goals simp [addressesFrom] at h hfail
  all_goals simp [State.latchVectors_eq_busRead16, State.busRead16, State.busRead_ok, State.busRead_fails, h, hfail,
    State.afterVectorReads, State.vectorsAfter, addressesFrom, State.wordRead_eq_joinBytes,
    ↓State.afterVectorReads_zero, ↓State.afterVectorReads_one]

/-! ### Construction -/

theorem construct_of_ok {u : Unspecified} {params : Params} {mem : Memory} {taken : Nat} {t : State} (r : ResetValues)
    (h : (unconstructed u params mem taken).latchVectors = .ok () t) :
    construct u r params mem taken =
      { t with a := r.a, x := r.x, y := r.y, p := r.p, s := 0xFF, pc := t.vec.reset, run := .running } := by
  rw [construct, h]
  rfl

theorem construct_of_raised {u : Unspecified} {params : Params} {mem : Memory} {taken : Nat} {t : State}
    (r : ResetValues) (h : (unconstructed u params mem taken).latchVectors = .raised t) :
    construct u r params mem taken = t := by
  rw [construct, h]

/-- On a platform without read side effects a word is the two bytes memory holds (R62). -/
theorem State.wordRead_flat (s : State) (lo hi : Addr) (h : s.params.platform.readEffects = []) :
    s.wordRead lo hi = s.byteAt hi ++ s.byteAt lo := by
  rw [State.wordRead, s.afterRead_flat lo h]
  rfl

theorem State.wordRead_afterReads_flat (s : State) (as : List Addr) (lo hi : Addr)
    (h : s.params.platform.readEffects = []) : (s.afterReads as).wordRead lo hi = s.byteAt hi ++ s.byteAt lo := by
  rw [State.wordRead_flat _ lo hi (by simpa using h), State.byteAt, State.byteAt, s.afterReads_flat_mem as h]
  rfl

theorem State.vectorsAfter_six_flat (s : State) (h : s.params.platform.readEffects = []) :
    s.vectorsAfter 6 = {
      nmi := s.byteAt 0xFFFB ++ s.byteAt 0xFFFA, reset := s.byteAt 0xFFFD ++ s.byteAt 0xFFFC
      irq := s.byteAt 0xFFFF ++ s.byteAt 0xFFFE } := by
  simp [State.vectorsAfter, s.wordRead_flat _ _ h, s.wordRead_afterReads_flat _ _ _ h, -State.afterReads_cons]

/-- R280: the six vector bytes, in ascending order. -/
theorem vectorAddresses : addressesFrom 6 0xFFFA = [0xFFFA, 0xFFFB, 0xFFFC, 0xFFFD, 0xFFFE, 0xFFFF] := rfl

/-- Settles O44: where all six reads are answered construction latches the three vectors and writes the registers;
without read side effects each byte is that of the memory image. -/
theorem constructionLatchesTheVectors : Obligations.ConstructionLatchesTheVectors := by
  intro u r params mem taken hread s rst t
  rw [← vectorAddresses] at hread ⊢
  have ht : t = _ := construct_of_ok r (State.latchVectors_ok hread)
  have hvec : t.vec = s.vectorsAfter 6 := by rw [ht]; rfl
  refine ⟨ht, ?_, ?_, fun hflat => ⟨?_, hvec.trans (s.vectorsAfter_six_flat hflat)⟩⟩
  · rw [ht]; exact s.afterReads_params _
  · rw [ht]; exact s.afterReads_accesses _
  · rw [ht]; exact s.afterReads_flat_mem _ hflat

/-- Settles O45: construction that fails gives the state in which the failing read ended it. -/
theorem failedConstructionEndsTheRun : Obligations.FailedConstructionEndsTheRun := by
  intro u r params mem taken n hn hread hfail s t
  have ht : t = (s.afterVectorReads n).failedRead (0xFFFA + BitVec.ofNat 16 n) :=
    construct_of_raised r (State.latchVectors_fails hn hread hfail)
  have haccesses := s.afterReads_accesses (addressesFrom n 0xFFFA)
  rw [ht]
  refine ⟨rfl, ?_, fun h => if_pos h, fun h => if_pos h, rfl, s.afterReads_params _⟩
  rw [addressesFrom_concat, List.map_append]
  exact congrArg (· ++ _) haccesses

end Sys2Proof.Machine
end
